-- ==== Sys2Proof/Word.lean ====
section
/-! DEFINITION. The machine's word types: bytes, the 16- and 32-bit fields of the link and the tables, and the
40-bit ride clock value (R1). Their plain arithmetic is that of `BitVec`. -/
namespace Sys2Proof

/-- One byte of the link, of a page, or of an SPI transaction. -/
abbrev Byte := BitVec 8

/-- A 16-bit field. -/
abbrev Word16 := BitVec 16

/-- A 32-bit field: the counts that wrap from 2^32 − 1 to 0, sequence numbers, card capacities. -/
abbrev Word32 := BitVec 32

/-- A ride clock value: 40 bits, in microseconds, wrapping from 2^40 − 1 to 0 (R1). -/
abbrev Time := BitVec 40

end Sys2Proof
end

