-- ==== Sys2Proof/Syntax.lean ====
section
/-! DEFINITION. The commands of the block: one constructor of `Instr` for each row of spec/opcode_table.json, with
the data that the spec says the command or event carries. The table gives no row any bits or operands; what a
constructor carries is what crosses the part's boundary with it (a packet, sampled bytes, a card's response). -/
namespace Sys2Proof

/-- The 8-byte packet header of R174: byte 0 (kind code in bits 0–3), byte 1 (tag, or the low byte of a MEDIA
host timestamp), bytes 2–3 (payload length) and bytes 4–7, the two multi-byte fields read little-endian. -/
structure Header where
  b0   : Byte
  b1   : Byte
  len  : Word16
  tail : Word32
  deriving DecidableEq, Repr

/-- A whole host-to-part request packet: its header and its payload bytes (R157, R174). -/
structure Packet where
  header  : Header
  payload : List Byte
  deriving DecidableEq, Repr

/-- The two capture channels of section 1.2. -/
inductive Channel where
  | fs | dr
  deriving DecidableEq, Repr

/-- The four conversions of one channel in one monitor pass (R143). -/
structure Quad where
  c0 : Int
  c1 : Int
  c2 : Int
  c3 : Int
  deriving DecidableEq, Repr

/-- The conversions of one monitor pass: four of each of the six channels (R143). -/
structure Conversions where
  vbat : Quad
  ibat : Quad
  vin  : Quad
  iin  : Quad
  tbat : Quad
  tdie : Quad
  deriving DecidableEq, Repr

/-- The commands and events of spec/opcode_table.json, one constructor for each row, in the table's order. -/
inductive Instr where
  | powerOn
  | resetAssert
  | resetRelease
  | fsEdge
  | drEdge
  /-- The channel whose cadence monitor's loss deadline is reached. -/
  | lossDeadlineExpiry (ch : Channel)
  | bandExpiry
  | initWriteDone
  | settleExpiry
  /-- The 14 bytes clocked in by the read transaction, in order (R15). -/
  | readComplete (bytes : List Byte)
  | mediaHeader (h : Header)
  /-- The payload bytes of the chunk being received, in order. -/
  | mediaPayloadComplete (payload : List Byte)
  | latencyExpiry
  | malformedPacket (h : Header)
  | clipStart (p : Packet)
  | clipStop (p : Packet)
  | flush (p : Packet)
  | segmentFree (p : Packet)
  | segmentProtect (p : Packet)
  | segmentUnprotect (p : Packet)
  | motionStart (p : Packet)
  | motionStop (p : Packet)
  | chargeInhibit (p : Packet)
  | chargeAllow (p : Packet)
  | chargeClear (p : Packet)
  | inputLimit (p : Packet)
  | cardRetry (p : Packet)
  | logClear (p : Packet)
  | status (p : Packet)
  | park (p : Packet)
  | restart (p : Packet)
  | unknownCommand (p : Packet)
  | windowLoad (p : Packet)
  | segmentLoad (p : Packet)
  | biasLoad (p : Packet)
  | mountLoad (p : Packet)
  | lensLoad (p : Packet)
  | motionCfgLoad (p : Packet)
  | clipCfgLoad (p : Packet)
  | chargeProfileLoad (p : Packet)
  | ocvLoad (p : Packet)
  | budgetCfgLoad (p : Packet)
  | tableLoadOther (p : Packet)
  | tableRead (p : Packet)
  | returnPacketSent
  | claimAssert
  | claimRelease
  /-- The level CDET changes to: whether it shows a card. -/
  | cdetChange (card : Bool)
  | cardInsertion
  | cardRemoval
  /-- The capacity in blocks that IDENTIFY returned (R103). -/
  | identifyResponse (capacity : Word32)
  /-- What STATUS returned: READY, or NOT_READY (R103). -/
  | cardStatusResponse (ready : Bool)
  | wakeAck
  | sleepAck
  | enterRun
  | openRunAck
  /-- The status token: ACCEPTED, or CRC_REJECT (R103). -/
  | blockToken (accepted : Bool)
  /-- What the end of busy reports: DONE, or PROGRAM_FAIL (R103). -/
  | busyEnd (programmed : Bool)
  | closeRunAck
  | cardTimeout
  | busyTimeout
  | shockHoldExpiry
  | monitorUpdate (conv : Conversions)
  | emergencyClose
  deriving DecidableEq, Repr

end Sys2Proof
end

