-- ==== Sys2Proof/Decode.lean ====
section
/-! DEFINITION. The fields of a packet header, the codes by which a packet selects its command, the commands that a
stream of bytes from the host spells (R157, R158, R174), and the command that a word spells by the bits of
spec/opcode_table.json. No row of the table has bits ("fields" is empty in each of the 64 rows and none has a fixed
part), so no word spells a command. -/
namespace Sys2Proof

/-- The command spelled by `w`: none, for the table gives no row any bits (notes/assumptions/4.md). -/
def decodeTableWord (_nbits _w : Nat) : Option Instr := none

/-- The packet kind code: the low four bits of byte 0 (R174). -/
def Header.kindCode (h : Header) : Nat := h.b0.toNat % 16

/-- A COMMAND's code: bytes 4–5 (R174). -/
def Header.commandCode (h : Header) : Nat := h.tail.toNat % 65536

/-- The table code of a TABLE_LOAD or TABLE_READ: bits 0–4 of bytes 4–7 (R174). -/
def Header.tableCode (h : Header) : Nat := h.tail.toNat % 32

/-- The first entry a table operation names: bits 5–15 of bytes 4–7 (R174). -/
def Header.firstEntry (h : Header) : Nat := h.tail.toNat / 32 % 2048

/-- The count a table operation names: bits 16–26 of bytes 4–7 (R174). -/
def Header.entryCount (h : Header) : Nat := h.tail.toNat / 65536 % 2048

/-- A header with a kind that names none of the four host kinds, or a length above 65520 (R158). -/
def Header.isMalformed (h : Header) : Bool :=
  !(decide (1 ≤ h.kindCode) && decide (h.kindCode ≤ 4)) || decide (65520 < h.len.toNat)

/-! ### What a packet selects (R157, R174) -/

/-- A request packet of the given kind, whole: its payload is as long as its header says. -/
def Packet.isKind (p : Packet) (kind : Nat) : Bool :=
  !p.header.isMalformed && decide (p.header.kindCode = kind) && decide (p.payload.length = p.header.len.toNat)

/-- A COMMAND packet with the given command code. -/
def Packet.isCommand (p : Packet) (code : Nat) : Bool :=
  p.isKind 2 && decide (p.header.commandCode = code)

/-- A COMMAND packet whose code names no command (R161, R174). -/
def Packet.isUnknown (p : Packet) : Bool :=
  p.isKind 2 && !(decide (1 ≤ p.header.commandCode) && decide (p.header.commandCode ≤ 17))

/-- A TABLE_LOAD packet of the given table code. -/
def Packet.isLoad (p : Packet) (table : Nat) : Bool :=
  p.isKind 3 && decide (p.header.tableCode = table)

/-- The row that a COMMAND packet selects by its command code (R174). -/
def commandRow (p : Packet) : Instr :=
  match p.header.commandCode with
  | 1 => .clipStart p
  | 2 => .clipStop p
  | 3 => .flush p
  | 4 => .segmentFree p
  | 5 => .segmentProtect p
  | 6 => .segmentUnprotect p
  | 7 => .motionStart p
  | 8 => .motionStop p
  | 9 => .chargeInhibit p
  | 10 => .chargeAllow p
  | 11 => .chargeClear p
  | 12 => .inputLimit p
  | 13 => .cardRetry p
  | 14 => .logClear p
  | 15 => .status p
  | 16 => .park p
  | 17 => .restart p
  | _ => .unknownCommand p

/-- The row that a TABLE_LOAD packet selects by its table code: that of a table that can be loaded, or TABLE_LOAD_OTHER
(R164, R174). -/
def loadRow (p : Packet) : Instr :=
  match p.header.tableCode with
  | 1 => .windowLoad p
  | 2 => .segmentLoad p
  | 3 => .biasLoad p
  | 4 => .mountLoad p
  | 5 => .lensLoad p
  | 6 => .motionCfgLoad p
  | 7 => .clipCfgLoad p
  | 8 => .chargeProfileLoad p
  | 9 => .ocvLoad p
  | 10 => .budgetCfgLoad p
  | _ => .tableLoadOther p

/-- The row that a header with its payload selects by the header's codes; a MEDIA or malformed packet's row comes at its
header and carries no payload (R157, R158, R174). -/
def packetRow (p : Packet) : Instr :=
  if p.header.isMalformed then .malformedPacket p.header
  else
    match p.header.kindCode with
    | 1 => .mediaHeader p.header
    | 2 => commandRow p
    | 3 => loadRow p
    | _ => .tableRead p

/-- The header of eight bytes (R174). -/
def headerOf (b0 b1 l0 l1 t0 t1 t2 t3 : Byte) : Header :=
  { b0 := b0, b1 := b1, len := l1 ++ l0, tail := t3 ++ t2 ++ t1 ++ t0 }

/-- The payload bytes that a packet takes off the stream: as many as its length field gives, or 65520 of a longer one
(R158). -/
def Header.payloadBytes (h : Header) : Nat := min h.len.toNat 65520

/-- The packet at the head of the host's stream, once it has arrived whole, and the bytes after it, which begin the next
header (R157, R158). -/
def takePacket : List Byte → Option (Packet × List Byte)
  | b0 :: b1 :: l0 :: l1 :: t0 :: t1 :: t2 :: t3 :: rest =>
    let h := headerOf b0 b1 l0 l1 t0 t1 t2 t3
    if rest.length < h.payloadBytes then none else some (⟨h, rest.take h.payloadBytes⟩, rest.drop h.payloadBytes)
  | _ => none

/-- The rows that a whole packet brings about: a MEDIA packet with payload its header's row and then its payload's
(R157). -/
def rowsOf (p : Packet) : List Instr :=
  match packetRow p with
  | .mediaHeader h => if p.payload.isEmpty then [.mediaHeader h] else [.mediaHeader h, .mediaPayloadComplete p.payload]
  | row => [row]

end Sys2Proof
end

