-- ==== Sys2Proof/Machine/State.lean ====
section
/-! DEFINITION. The machine's state, block by block as section 0.4 lists the blocks, the reasons a step can stop,
and the state after reset. Plain data throughout: no field holds a function. -/
namespace Sys2Proof.Machine

/-! ### Chapter 1: ride clock and capture unit -/

/-- A cadence monitor's state (section 1.3). -/
inductive Cadence where
  | lost | locked
  deriving DecidableEq, Repr

/-- One channel's capture record with its cadence monitor (section 1.2, R3, R5–R7). -/
structure Capture where
  last     : Time
  prev     : Time
  count    : Word32
  cadence  : Cadence
  lockRun  : Nat
  deadline : Option Time
  /-- Whether an edge has been taken since the MOTION_START that began the session (R6, R7). -/
  edgeSeen : Bool
  deriving DecidableEq, Repr

/-- One entry of the band compare list: band index and due time (R10). -/
structure BandDue where
  band : Nat
  due  : Time
  deriving DecidableEq, Repr

/-- The ride clock and capture unit. -/
structure CaptureUnit where
  clock : Time
  fs    : Capture
  dr    : Capture
  bands : List BandDue
  deriving DecidableEq, Repr

/-! ### Chapter 2: IMU port -/

/-- The IMU port's states (section 2.2.1). -/
inductive PortState where
  | stopped | init | idle | reading
  deriving DecidableEq, Repr

/-- The SPI transaction in progress (R15): the write of one init pair, `index` its place in the list, or the read
of a sample, `addr` the byte it sends and `stamp` the DR timestamp of the edge that started it (R18). -/
inductive Transaction where
  | write (index : Nat) (addr value : Byte)
  | read (addr : Byte) (stamp : Time)
  deriving DecidableEq, Repr

/-- The MOTION_CFG table (sections 2.1 and 4.3). -/
structure MotionCfg where
  rate     : Nat
  spiClock : Nat
  address  : Nat
  settleMs : Nat
  shockT   : Nat
  shockRun : Nat
  rearm    : Nat
  pairs    : List (Byte × Byte)
  deriving DecidableEq, Repr

/-- The IMU port. `active` is the part-wide fact that motion is active (R16, R20). -/
structure ImuPort where
  active     : Bool
  state      : PortState
  txn        : Option Transaction
  /-- Whether the transaction in progress was running when a MOTION_STOP was taken (R17, R20). -/
  stale      : Bool
  /-- End of the settle wait, once it is running (R16). -/
  settleDue  : Option Time
  overruns   : Word32
  cfg        : MotionCfg
  deriving DecidableEq, Repr

/-! ### Chapters 2 and 3: motion computer -/

/-- The active copy of a table and the pending copy, when one is waiting (R27). -/
structure Dual (α : Type) where
  active  : α
  pending : Option α
  deriving DecidableEq, Repr

/-- One value for each camera axis. -/
structure Tri (α : Type) where
  yaw   : α
  pitch : α
  roll  : α
  deriving DecidableEq, Repr

/-- One entry of MOUNT: the sensor axis code 0, 1, 2 for x, y, z, and whether the sign is − (R25). -/
structure MountSource where
  axis     : Nat
  negative : Bool
  deriving DecidableEq, Repr

/-- One axis's smoothing parameters: shift s, margin L_A, gain K (R33). -/
structure LensAxis where
  shift  : Nat
  margin : Nat
  gain   : Nat
  deriving DecidableEq, Repr

/-- One copy of the LENS table (R9, R33). -/
structure Lens where
  framePeriod : Nat
  bands       : Nat
  readout     : Nat
  latchOffset : Int
  axes        : Tri LensAxis
  deriving DecidableEq, Repr

/-- One axis integrator: angle A, path P, error C, previous error, held displacement D (section 3.3). -/
structure Integrator where
  angle : Int
  path  : Int
  err   : Int
  errPrev : Int
  disp  : Int
  deriving DecidableEq, Repr

/-- The gap state (section 2.6.1). -/
structure GapState where
  lastGood  : Option Time
  lastRates : Tri Int
  count     : Word32
  deriving DecidableEq, Repr

/-- The shock detector's state (section 4.3.1). -/
structure ShockDetector where
  armed   : Bool
  highRun : Nat
  lowRun  : Nat
  total   : Word32
  deriving DecidableEq, Repr

/-- The motion computer. `bias` holds 27 points: gyro x b_0 to b_8, then y, then z (R22). -/
structure MotionComputer where
  bias     : Dual (List Int)
  mount    : Dual (Tri MountSource)
  lens     : Dual Lens
  axes     : Tri Integrator
  gap      : GapState
  shock    : ShockDetector
  /-- The unclamped T16 of the most recent sample (R21). -/
  lastTemp : Int
  deriving DecidableEq, Repr

/-! ### Chapter 4: frame record builder -/

/-- The flags of a frame record (section 4.1). -/
structure FrameFlags where
  marginX      : Bool
  marginY      : Bool
  marginRoll   : Bool
  saturated    : Bool
  gap          : Bool
  truncated    : Bool
  shock        : Bool
  uncalibrated : Bool
  cadenceLost  : Bool
  deriving DecidableEq, Repr

/-- A frame record. While it is under construction, `entries` holds the band entries latched so far, in band
order; a finished record holds one for each of its `bands` bands. -/
structure FrameRecord where
  number  : Word32
  stamp   : Time
  bands   : Nat
  entries : List (Int × Int)
  roll    : Int
  flags   : FrameFlags
  shocks  : Nat
  deriving DecidableEq, Repr

/-- The frame record builder. -/
structure FrameBuilder where
  record     : Option FrameRecord
  /-- Whether a frame is in progress: an FS edge has started one in this session (R49). -/
  inFrame    : Bool
  lateFlags  : FrameFlags
  lateShocks : Nat
  sendList   : List FrameRecord
  withheld   : Word32
  /-- Number of the last record that joined the send list in this session (R48). -/
  lastNumber : Option Word32
  accOpen    : Bool
  acc        : List FrameRecord
  deriving DecidableEq, Repr

/-! ### Chapter 5: chunk buffer and write queue -/

/-- Chunk kinds (R66, R173). -/
inductive ChunkKind where
  | video | audio | data | motion
  deriving DecidableEq, Repr

/-- A descriptor's states while it is in the queue (R63); a descriptor that becomes WRITTEN leaves at once. -/
inductive ChunkState where
  | receiving | ready | placed
  deriving DecidableEq, Repr

/-- A chunk descriptor (section 5.3). `place` is the chunk's stream offset in the FILLING segment while its
placement stands; a PLACED chunk without one has had its placement withdrawn (R97). -/
structure Chunk where
  seq      : Word32
  kind     : ChunkKind
  key      : Bool
  hostTime : Time
  arrival  : Option Time
  length   : Nat
  pages    : List Nat
  acked    : Nat
  state    : ChunkState
  place    : Option Nat
  deriving DecidableEq, Repr

/-- The chunk buffer and write queue. `ram` is the content of the 384 pages: the byte at offset o of page g has
address 4096·g + o. -/
structure ChunkBuffer where
  ram         : List Host.Cell
  free        : List Nat
  queue       : List Chunk
  nextSeq     : Word32
  accepted    : Word32
  written     : Word32
  discarded   : Word32
  mediaDiscard : Word32
  motionDrop  : Word32
  /-- Sequence number of the flush mark's descriptor while a flush is pending (R76). -/
  flush       : Option Word32
  latDeadline : Option Time
  /-- Whether the deadline that stands has expired: the latency trigger's clock condition (R74, R75). -/
  latExpired  : Bool
  /-- The HOLD line (R68). -/
  hold        : Bool
  deriving DecidableEq, Repr

/-! ### Chapter 6: clip recorder -/

/-- The CLIP_CFG table (sections 4.2, 5.9.1, 6.1, 7.8). -/
structure ClipCfg where
  areaBase     : Nat
  sizeCode     : Nat
  allowance    : Nat
  protectLimit : Nat
  preEventS    : Nat
  emergencyBudget : Nat
  perChunk     : Nat
  batchKiB     : Nat
  latencyMs    : Nat
  sleepEnable  : Bool
  shockHoldMs  : Nat
  deriving DecidableEq, Repr

/-- A slot's states (R84). -/
inductive SlotState where
  | empty | free | filling | closed | interrupted | unusable
  deriving DecidableEq, Repr

/-- A protected slot's reason (section 6.3). -/
inductive Protection where
  | shock | host
  deriving DecidableEq, Repr

/-- Why a segment closed (section 6.3). -/
inductive EndReason where
  | stop | rollover | forced | ringFull | emergency | damaged
  deriving DecidableEq, Repr

/-- A segment record: one slot of the segment table (section 6.3). -/
structure Slot where
  state     : SlotState
  first     : Nat
  count     : Nat
  prot      : Option Protection
  clip      : Option Word32
  firstSeq  : Option Word32
  lastSeq   : Option Word32
  startTime : Option Time
  endTime   : Option Time
  streamLen : Nat
  skips     : List (Nat × Nat)
  shocks    : Nat
  closeSeq  : Option Word32
  endReason : Option EndReason
  deriving DecidableEq, Repr

/-- The clip recorder's states (section 6.5). -/
inductive ClipState where
  | idle | recording | rolloverWait | closing | emergency
  deriving DecidableEq, Repr

/-- Clip modes (R90). -/
inductive ClipMode where
  | loop | linear
  deriving DecidableEq, Repr

/-- The reasons a close can be pending for (section 6.5, R94). -/
inductive CloseCause where
  | rollover | forced | damaged
  deriving DecidableEq, Repr

/-- What the clip recorder keeps of the segment being filled (section 6.5): the FILLING slot, the placement
position, the acknowledged front, the pending close, whether a chunk's placement stands, the emergency limit; the
contributions of its granules (R88), the stream positions at which fillers begin (R77), and F's stream offset once
the segment is damaged at F (R97). -/
structure Filling where
  slot      : Nat
  placement : Nat
  front     : Nat
  pending   : Option CloseCause
  anyPlaced : Bool
  limit     : Nat
  contrib   : List Nat
  fillers   : List Nat
  damagedAt : Option Nat
  deriving DecidableEq, Repr

/-- The clip recorder. Granule g's window bit is bit g of `window` (section 6.2). -/
structure ClipRecorder where
  state        : ClipState
  cfg          : ClipCfg
  window       : BitVec 32768
  slots        : Vector Slot 64
  closeCounter : Word32
  clipNumber   : Word32
  mode         : ClipMode
  filling      : Option Filling
  protectRefused : Word32
  deriving DecidableEq, Repr

/-! ### Chapter 7: card controller -/

/-- The card states (section 7.2). -/
inductive CardState where
  | absent | init | ready | sleep | run | recover | yielded | fault
  deriving DecidableEq, Repr

/-- What the card controller has sent and waits on (R103): a command or a block awaiting its answer, or the busy
that follows an ACCEPTED token. A block carries its card address and its 512 bytes. -/
inductive CardOp where
  | identify
  | status
  | wake
  | sleep
  | openRun (addr count : Nat)
  | block (addr : Nat) (data : List Byte)
  | busy (addr : Nat)
  | closeRun
  deriving DecidableEq, Repr

/-- The operation in flight on the card bus and the deadline of its answer. -/
structure CardCommand where
  op       : CardOp
  deadline : Time
  deriving DecidableEq, Repr

/-- What follows the CLOSE_RUN in flight (R109–R111). -/
inductive AfterClose where
  | leave | retry | giveUp
  deriving DecidableEq, Repr

/-- The run in flight (section 7.2): the FILLING slot it writes, its first stream block and that block's card
address, its count, the blocks acknowledged, the failed attempts at the current block, what follows its CLOSE_RUN,
and whether its retry waits for a shock hold to pass (R110). -/
structure Run where
  slot      : Nat
  first     : Nat
  addr      : Nat
  count     : Nat
  acked     : Nat
  attempts  : Nat
  after     : AfterClose
  awaitHold : Bool
  deriving DecidableEq, Repr

/-- How an INIT began (R105), or that the identification is a RECOVER (R114). -/
inductive IdentOrigin where
  | insertion | claimRelease | cardRetry | hostReset | powerOn | recovery
  deriving DecidableEq, Repr

/-- An identification in progress: its origin, the try it is at, 1..3, and the capacity IDENTIFY returned in this
try. -/
structure Identification where
  origin   : IdentOrigin
  attempt  : Nat
  capacity : Option Word32
  deriving DecidableEq, Repr

/-- An entry of the bad-granule list (R112). -/
structure BadGranule where
  granule : Nat
  addr    : Nat
  slot    : Nat
  time    : Time
  deriving DecidableEq, Repr

/-- Error log kinds (R116). -/
inductive LogKind where
  | corrected | blockFailed | busyTimeout | noResponse | cardRemoved | initFailed
  deriving DecidableEq, Repr

/-- An entry of the error log (R116). -/
structure LogEntry where
  seq      : Word32
  kind     : LogKind
  addr     : Nat
  slot     : Option Nat
  attempts : Nat
  time     : Time
  deriving DecidableEq, Repr

/-- The card controller. Its grant item is that of the input budget (R150). -/
structure CardController where
  state       : CardState
  capacity    : Word32
  present     : Bool
  /-- End of CDET's settling time while a change is settling (R104). -/
  settleDue   : Option Time
  bus         : Option CardCommand
  run         : Option Run
  ident       : Option Identification
  recovery    : Nat
  shockHold   : Option Time
  /-- In YIELDED: whether the CLAIM was taken in SLEEP (R105). -/
  leftAsleep  : Bool
  badList     : List BadGranule
  log         : List LogEntry
  logSeq      : Word32
  corrected   : Word32
  overflow    : Word32
  suppressed  : List Nat
  deriving DecidableEq, Repr

/-! ### Chapter 8: charge controller -/

/-- The charge stages (section 8.5). -/
inductive Stage where
  | idle | qualify | precharge | fast | taper | topOff | full | hold | fault
  deriving DecidableEq, Repr

/-- Battery temperature zones (R126). -/
inductive Zone where
  | cold | cool | normal | warm | hot
  deriving DecidableEq, Repr

/-- Die levels (R127). -/
inductive DieLevel where
  | ok | warn | crit
  deriving DecidableEq, Repr

/-- Reasons of the charge stage FAULT (R139). -/
inductive ChargeFault where
  | battery | timer
  deriving DecidableEq, Repr

/-- The set of hold causes (section 8.6). -/
structure HoldCauses where
  temp        : Bool
  inhibit     : Bool
  thermal     : Bool
  profile     : Bool
  overVoltage : Bool
  deriving DecidableEq, Repr

/-- The CHARGE_PROFILE table (section 8.2). -/
structure ChargeProfile where
  coolCurrent   : Int
  coolVoltage   : Int
  normalCurrent : Int
  normalVoltage : Int
  warmCurrent   : Int
  warmVoltage   : Int
  preThreshold  : Int
  preCurrent    : Int
  preMinutes    : Int
  fastMinutes   : Int
  termination   : Int
  topOffMinutes : Int
  rechargeDrop  : Int
  rampStep      : Int
  rampMs        : Int
  backOff       : Int
  t0 : Int
  t1 : Int
  t2 : Int
  t3 : Int
  hysteresis : Int
  tWarn : Int
  tCrit : Int
  deriving DecidableEq, Repr

/-- The charge controller. `elapsed` counts the updates of QUALIFY, PRECHARGE or TOP_OFF, and keeps those of an
interrupted PRECHARGE through HOLD (R131). -/
structure ChargeController where
  stage    : Stage
  zone     : Option Zone
  die      : DieLevel
  profile  : ChargeProfile
  inhibit  : Bool
  causes   : HoldCauses
  resume   : Stage
  fault    : Option ChargeFault
  runCount : Nat
  elapsed  : Nat
  /-- The safety accumulator E, in mA·10 ms (R140). -/
  safety   : Nat
  ceiling  : Int
  /-- The zone limit recorded when OVER_VOLTAGE was set (R136). -/
  ovLimit  : Option Int
  deriving DecidableEq, Repr

/-! ### Chapter 9: input budget and gauge -/

/-- The burst grant (R149). -/
inductive Grant where
  | none | pending | held
  deriving DecidableEq, Repr

/-- The six readings of a monitor update (R143). -/
structure Readings where
  vbat : Int
  ibat : Int
  vin  : Int
  iin  : Int
  tbat : Int
  tdie : Int
  deriving DecidableEq, Repr

/-- The BUDGET_CFG table (section 9.2). -/
structure BudgetCfg where
  presentMv    : Int
  absentMv     : Int
  vinMin       : Int
  headroom     : Int
  band         : Int
  burstReserve : Int
  capacity     : Int
  closeReserve : Int
  cutoff       : Int
  deriving DecidableEq, Repr

/-- The input budget and gauge. -/
structure Budget where
  inputPresent : Bool
  presenceRun  : Nat
  cfg          : BudgetCfg
  inputLimit   : Int
  /-- The charge setpoint, which is the level of ISET. -/
  setpoint     : Int
  /-- The setpoint in force: that sent at the end of the update before (R128). -/
  inForce      : Int
  /-- Updates since the last rise, or none yet (section 9.4). -/
  sinceRise    : Option Nat
  grant        : Grant
  limitEff     : Int
  readings     : Readings
  updates      : Word32
  /-- When the monitor sequencer's pass in progress ends, and with it the next update is due (R143). -/
  passDue      : Time
  charge       : Nat
  estimated    : Bool
  /-- Whether the next update takes an estimate (R153). -/
  estimateDue  : Bool
  ocv          : List Int
  lowRun       : Nat
  lowState     : Bool
  ordered      : Bool
  /-- An emergency close ordered at an update and not yet taken by the clip recorder (R144, R155). -/
  orderPending : Bool
  deriving DecidableEq, Repr

/-! ### Chapter 10: link controller -/

/-- Result codes (R160). -/
inductive ResultCode where
  | ok | busy | badArg | badTable | limit | noCard | noSegment | unknown
  deriving DecidableEq, Repr

/-- The kinds of request (R157). -/
inductive RequestKind where
  | command | tableLoad | tableRead
  deriving DecidableEq, Repr

/-- A request's answer: ready with its code and data, or a MOTION_START or MOTION_STOP not yet decided (R160). -/
inductive Answer where
  | ready (code : ResultCode) (data : List Byte)
  | awaitStart
  | awaitStop
  deriving DecidableEq, Repr

/-- An entry of the outstanding list (section 10.2.1). -/
structure Request where
  tag    : Byte
  kind   : RequestKind
  answer : Answer
  deriving DecidableEq, Repr

/-- Reasons of CLIP_ENDED (R174). -/
inductive ClipEnd where
  | stop | ringFull | emergency | cardAbsent
  deriving DecidableEq, Repr

/-- Reasons of MEDIA_DISCARD (R67). -/
inductive DiscardReason where
  | notRecording | noSpace | emergency | parked
  deriving DecidableEq, Repr

/-- Reasons of MOTION_DROP (R51, R54). -/
inductive DropReason where
  | sendFull | noDescriptor | noPage
  deriving DecidableEq, Repr

/-- Causes of POWER_LOW (R155). -/
inductive LowCause where
  | charge | voltage | both
  deriving DecidableEq, Repr

/-- Reasons of LINK_OVERRUN (R158, R159). -/
inductive OverrunReason where
  | badKind | badLength | tooMany
  deriving DecidableEq, Repr

/-- The 17 notice kinds, in the order of their codes (R166, R174). -/
inductive NoticeKind where
  | shock | protectRefused | segmentClosed | clipEnded | rolloverForced | cardTaken | cardReturned | cardError
  | cardPresence | mediaDiscard | motionDrop | cadence | chargeState | powerLow | input | thermal | linkOverrun
  deriving DecidableEq, Repr

/-- A notice: its kind with the argument its owning rule gives (R174). -/
inductive Notice where
  | shock (time : Time) (total : Word32)
  | protectRefused (slot : Nat) (time : Time)
  | segmentClosed (slot : Nat) (reason : EndReason) (closeSeq : Word32)
  | clipEnded (clip : Word32) (reason : ClipEnd)
  | rolloverForced (slot : Nat) (seq : Word32)
  | cardTaken (left : CardState) (front : Nat)
  | cardReturned (capacity : Word32)
  | cardError (kind : LogKind) (seq : Word32)
  | cardPresence (present : Bool) (time : Time)
  | mediaDiscard (reason : DiscardReason) (hostTime : Time)
  | motionDrop (reason : DropReason) (first : Word32) (lost : Nat)
  | cadence (ch : Channel) (state : Cadence) (time : Time)
  | chargeState (stage : Stage) (fault : Option ChargeFault) (causes : HoldCauses) (vbat : Int)
  | powerLow (cause : LowCause) (percent : Nat) (vbat : Int) (ordered : Bool)
  | input (present : Bool) (vin : Int)
  | thermal (level : DieLevel) (tdie : Int)
  | linkOverrun (reason : OverrunReason) (b0 tag : Byte) (len : Word16)
  deriving DecidableEq, Repr

/-- An entry of the notice set: occurrence count 1..65535 and the latest notice of its kind (R166). -/
structure NoticeEntry where
  count  : Nat
  notice : Notice
  deriving DecidableEq, Repr

/-- Where the receive parser stands between the packets of the host (R157, R158): at a header boundary; in the payload
of a MEDIA chunk that was accepted, which the chunk buffer is storing; or in payload that it drops, that of a MEDIA chunk
refused or of a malformed packet. A request is taken whole, so none is ever half received (notes/assumptions/21.md). -/
inductive Parser where
  | header
  | storing (length : Nat)
  | dropping (length : Nat)
  deriving DecidableEq, Repr

/-- The link controller. `sending` holds the bytes of the packet on the return direction (R167). -/
structure Link where
  parser      : Parser
  parked      : Bool
  outstanding : List Request
  notices     : List NoticeEntry
  overruns    : Word32
  sending     : Option (List Byte)
  deriving DecidableEq, Repr

/-- The input lines whose level the part reads: RESET and CLAIM asserted, CDET showing a card. -/
structure Pins where
  reset : Bool
  claim : Bool
  card  : Bool
  deriving DecidableEq, Repr

/-- The state of the part, block by block, the model's counter of free values, and the queue of waiting commands. -/
structure State where
  capture   : CaptureUnit
  imu       : ImuPort
  motion    : MotionComputer
  frame     : FrameBuilder
  buffer    : ChunkBuffer
  clip      : ClipRecorder
  card      : CardController
  charge    : ChargeController
  budget    : Budget
  link      : Link
  pins      : Pins
  freeCount : Nat
  pending   : List Instr
  deriving DecidableEq, Repr

/-! ### Power-on values, block by block -/

/-- The capture record and monitor of R3. -/
def Capture.reset : Capture :=
  { last := 0, prev := 0, count := 0, cadence := .lost, lockRun := 0, deadline := none, edgeSeen := false }

/-- R1, R3, R13. -/
def CaptureUnit.reset : CaptureUnit := { clock := 0, fs := .reset, dr := .reset, bands := [] }

/-- The defaults of sections 2.1 and 4.3 (R14). -/
def MotionCfg.reset : MotionCfg :=
  { rate := 1000, spiClock := 8, address := 0x22, settleMs := 10, shockT := 24000, shockRun := 2, rearm := 200,
    pairs := [] }

/-- R20. -/
def ImuPort.reset : ImuPort :=
  { active := false, state := .stopped, txn := none, stale := false, settleDue := none, overruns := 0,
    cfg := .reset }

/-- The axis defaults of section 3.2. -/
def LensAxis.reset : LensAxis := { shift := 8, margin := 0, gain := 0 }

/-- The defaults of sections 1.4.1 and 3.2 (R9, R33). -/
def Lens.reset : Lens :=
  { framePeriod := 33333, bands := 1, readout := 16000, latchOffset := 0, axes := ⟨.reset, .reset, .reset⟩ }

/-- The default mount: yaw +z, pitch +x, roll +y (section 2.4). -/
def mountReset : Tri MountSource := ⟨⟨2, false⟩, ⟨0, false⟩, ⟨1, false⟩⟩

/-- R47. -/
def Integrator.reset : Integrator := { angle := 0, path := 0, err := 0, errPrev := 0, disp := 0 }

/-- R31. -/
def GapState.reset : GapState := { lastGood := none, lastRates := ⟨0, 0, 0⟩, count := 0 }

/-- R58. -/
def ShockDetector.reset : ShockDetector := { armed := true, highRun := 0, lowRun := 0, total := 0 }

/-- R21, R22, R25, R31, R33, R47, R58. -/
def MotionComputer.reset : MotionComputer :=
  { bias := ⟨List.replicate 27 0, none⟩, mount := ⟨mountReset, none⟩, lens := ⟨.reset, none⟩,
    axes := ⟨.reset, .reset, .reset⟩, gap := .reset, shock := .reset, lastTemp := 0 }

/-- All flags clear. -/
def FrameFlags.clear : FrameFlags :=
  { marginX := false, marginY := false, marginRoll := false, saturated := false, gap := false, truncated := false,
    shock := false, uncalibrated := false, cadenceLost := false }

/-- R52. -/
def FrameBuilder.reset : FrameBuilder :=
  { record := none, inFrame := false, lateFlags := .clear, lateShocks := 0, sendList := [], withheld := 0,
    lastNumber := none, accOpen := false, acc := [] }

/-- R79. -/
def ChunkBuffer.reset : ChunkBuffer :=
  { ram := [], free := List.range 384, queue := [], nextSeq := 1, accepted := 0, written := 0, discarded := 0,
    mediaDiscard := 0, motionDrop := 0, flush := none, latDeadline := none, latExpired := false, hold := false }

/-- The defaults of sections 4.2, 5.9.1, 6.1 and 7.8 (R81, R120, R121). -/
def ClipCfg.reset : ClipCfg :=
  { areaBase := 0, sizeCode := 0, allowance := 2048, protectLimit := 16, preEventS := 10, emergencyBudget := 4096,
    perChunk := 8, batchKiB := 256, latencyMs := 500, sleepEnable := true, shockHoldMs := 100 }

/-- An EMPTY slot (R84); its extent is notes/assumptions/1.md's choice. -/
def Slot.reset : Slot :=
  { state := .empty, first := 0, count := 0, prot := none, clip := none, firstSeq := none, lastSeq := none,
    startTime := none, endTime := none, streamLen := 0, skips := [], shocks := 0, closeSeq := none,
    endReason := none }

/-- R84, R98, R102. -/
def ClipRecorder.reset : ClipRecorder :=
  { state := .idle, cfg := .reset, window := 0, slots := Vector.replicate 64 .reset, closeCounter := 0,
    clipNumber := 0, mode := .loop, filling := none, protectRefused := 0 }

/-- R123, with CLAIM released and no card shown. -/
def CardController.reset : CardController :=
  { state := .absent, capacity := 0, present := false, settleDue := none, bus := none, run := none, ident := none,
    recovery := 0, shockHold := none, leftAsleep := false, badList := [], log := [], logSeq := 0, corrected := 0,
    overflow := 0, suppressed := [] }

/-- No hold cause. -/
def HoldCauses.clear : HoldCauses :=
  { temp := false, inhibit := false, thermal := false, profile := false, overVoltage := false }

/-- The defaults of section 8.2 (R125). -/
def ChargeProfile.reset : ChargeProfile :=
  { coolCurrent := 250, coolVoltage := 4200, normalCurrent := 500, normalVoltage := 4200, warmCurrent := 500,
    warmVoltage := 4100, preThreshold := 3000, preCurrent := 100, preMinutes := 30, fastMinutes := 240,
    termination := 100, topOffMinutes := 20, rechargeDrop := 100, rampStep := 50, rampMs := 100, backOff := 200,
    t0 := 0, t1 := 100, t2 := 450, t3 := 550, hysteresis := 20, tWarn := 950, tCrit := 1100 }

/-- R142. -/
def ChargeController.reset : ChargeController :=
  { stage := .idle, zone := none, die := .ok, profile := .reset, inhibit := false, causes := .clear,
    resume := .qualify, fault := none, runCount := 0, elapsed := 0, safety := 0, ceiling := 0, ovLimit := none }

/-- The defaults of section 9.2 (R145). -/
def BudgetCfg.reset : BudgetCfg :=
  { presentMv := 4400, absentMv := 4000, vinMin := 4500, headroom := 50, band := 100, burstReserve := 250,
    capacity := 1000, closeReserve := 60, cutoff := 3300 }

/-- R124, R143 (the first update 10 ms after power-on), R146, R149, R151, R153, R156. `charge` and `limitEff` before the
first update are notes/assumptions/1.md's choice. -/
def Budget.reset : Budget :=
  { inputPresent := false, presenceRun := 0, cfg := .reset, inputLimit := 500, setpoint := 0, inForce := 0,
    sinceRise := none, grant := .none, limitEff := 0, readings := ⟨0, 0, 0, 0, 0, 0⟩, updates := 0, passDue := 10000,
    charge := 0, estimated := true, estimateDue := true,
    ocv := [3300, 3550, 3650, 3700, 3740, 3780, 3830, 3900, 3980, 4070, 4170], lowRun := 0, lowState := false,
    ordered := false, orderPending := false }

/-- R157, R172. -/
def Link.reset : Link :=
  { parser := .header, parked := false, outstanding := [], notices := [], overruns := 0, sending := none }

/-- The lines' levels taken for reset: RESET and CLAIM released, no card (notes/assumptions/1.md). -/
def Pins.released : Pins := { reset := false, claim := false, card := false }

/-- The part right after power-on, with RESET and CLAIM released, no card in the socket and no command waiting. -/
def State.reset : State :=
  { capture := .reset, imu := .reset, motion := .reset, frame := .reset, buffer := .reset, clip := .reset,
    card := .reset, charge := .reset, budget := .reset, link := .reset, pins := .released, freeCount := 0,
    pending := [] }

/-! ### How a step can stop -/

/-- The faults: none. The spec gives every command of the table an effect in every state (a command that meets no
work, or an answer nothing waits for, has none), so no command stops the part: nothing raises a fault. Safe. -/
inductive Fault where
  deriving DecidableEq, Repr

/-- The refusals. -/
inductive Refusal where
  /-- Raised by an arm of `exec` whose command has no meaning in the model yet; no arm raises it. Safe. -/
  | notModelled (mnemonic : String)
  deriving DecidableEq, Repr

end Sys2Proof.Machine
end

