-- ==== Sys2Proof/Machine/Flags.lean ====
section
/-! DEFINITION. The flags of frame records and the marks that set them (R49), the hold causes as a set (R135), and
the conditions read from the state of a block: clip open, protected slots. -/
namespace Sys2Proof.Machine

/-- The marks handed to the builder with a sample: MARGIN of each axis, SATURATED, GAP (R39). -/
structure Marks where
  margin    : Tri Bool
  saturated : Bool
  gap       : Bool
  deriving DecidableEq, Repr

/-- Flags with a sample's marks added; a flag once set stays set (R49). -/
def FrameFlags.mark (f : FrameFlags) (m : Marks) : FrameFlags :=
  { f with
    marginX := f.marginX || m.margin.yaw
    marginY := f.marginY || m.margin.pitch
    marginRoll := f.marginRoll || m.margin.roll
    saturated := f.saturated || m.saturated
    gap := f.gap || m.gap }

/-- The flags of either of two sets. -/
def FrameFlags.union (f g : FrameFlags) : FrameFlags :=
  { marginX := f.marginX || g.marginX, marginY := f.marginY || g.marginY,
    marginRoll := f.marginRoll || g.marginRoll, saturated := f.saturated || g.saturated, gap := f.gap || g.gap,
    truncated := f.truncated || g.truncated, shock := f.shock || g.shock,
    uncalibrated := f.uncalibrated || g.uncalibrated, cadenceLost := f.cadenceLost || g.cadenceLost }

/-- A shock count of 0..255, saturating (R49). -/
def shockCountAdd (a b : Nat) : Nat := min (a + b) 255

/-- Whether any hold cause stands (section 8.6). -/
def HoldCauses.any (c : HoldCauses) : Bool := c.temp || c.inhibit || c.thermal || c.profile || c.overVoltage

/-- Whether a clip is open: RECORDING, ROLLOVER_WAIT, CLOSING or EMERGENCY (R162). -/
def ClipState.isOpen : ClipState → Bool
  | .idle => false
  | .recording | .rolloverWait | .closing | .emergency => true

/-- Number of slots whose protected flag is set (R87). -/
def ClipRecorder.protectedCount (c : ClipRecorder) : Nat := (c.slots.toList.filter (fun x => x.prot.isSome)).length

end Sys2Proof.Machine
end

