-- ==== Sys2Proof/Config.lean ====
section
/-! DEFINITION. The free values: what the spec leaves unstated although the machine goes on. Each is an opaque
constant with no body, applied to the state's own counter of free values (`State.freeCount`), so no proof can
depend on one. Notes: notes/assumptions/3.md. -/
namespace Sys2Proof

/-- The n-th open two-way choice of a run: a reason where two hold at once, an order of two effects. -/
opaque Config.freeBool : Nat → Bool

/-- The n-th open 32-bit value of a run: a block address the error log's rules do not give. -/
opaque Config.freeWord : Nat → Word32

/-- The n-th open byte of a run: the zone code of a STATUS snapshot taken before any zone is in force. -/
opaque Config.freeByte : Nat → Byte

end Sys2Proof
end

