-- ==== Sys2Proof/Machine/Ops.lean ====
section
/-! DEFINITION. The operations that every block shares: ride clock arithmetic (R1), the free values, the page
memory, and the raising of notices (R166). -/
namespace Sys2Proof.Machine

/-! ### Ride clock arithmetic (R1) -/

/-- Whether a is at or after b: (a − b) modulo 2^40 is below 2^39 (R1). -/
def atOrAfter (a b : Time) : Bool := decide ((a - b).toNat < 2 ^ 39)

/-- The difference a − b in µs when it is valid (R1). -/
def validDiff (a b : Time) : Option Nat := if (a - b).toNat < 2 ^ 39 then some (a - b).toNat else none

/-- The ride clock value `us` microseconds after t, modulo 2^40. -/
def later (t : Time) (us : Nat) : Time := t + BitVec.ofNat 40 us

/-- Whether the clock value `now` has reached a deadline; no deadline is never reached. -/
def reached (now : Time) : Option Time → Bool
  | none => false
  | some d => atOrAfter now d

/-- The earlier of two ride clock values. -/
def earlier (a b : Time) : Time := if atOrAfter b a then a else b

/-- The ride clock now. -/
def State.now (s : State) : Time := s.capture.clock

/-! ### Free values (Config) -/

/-- Either of two continuations, the spec leaving open which: a free choice, and the next one counted. -/
def State.chooseFree (s : State) (yes no : State → State) : State :=
  let s' := { s with freeCount := s.freeCount + 1 }
  if Config.freeBool s.freeCount then yes s' else no s'

/-! ### The page memory: 384 pages of 4096 bytes (R60) -/

/-- What a byte of a page reads as while nothing has been stored in it (notes/assumptions/2.md). -/
def ramDefault : Byte := 0

/-- One byte of the page memory. -/
def ramRead : List Host.Cell → Nat → Byte
  | [], _ => ramDefault
  | (k, v) :: rest, a => if k = a then v else ramRead rest a

/-- One byte stored, keeping the cells in strictly rising address order with none equal to the default. -/
def ramWrite : List Host.Cell → Nat → Byte → List Host.Cell
  | [], a, b => if b = ramDefault then [] else [(a, b)]
  | (k, v) :: rest, a, b =>
    if a < k then (if b = ramDefault then (k, v) :: rest else (a, b) :: (k, v) :: rest)
    else if a = k then (if b = ramDefault then rest else (a, b) :: rest)
    else (k, v) :: ramWrite rest a b

/-- The address of stream byte `off` of a chunk that holds `pages` in stream order (R61). -/
def pageAddress (pages : List Nat) (off : Nat) : Nat := pages.getD (off / 4096) 0 * 4096 + off % 4096

/-- Bytes stored from stream byte `off` of a chunk on, in order (R61, R66). -/
def ramStore (pages : List Nat) : Nat → List Byte → List Host.Cell → List Host.Cell
  | _, [], ram => ram
  | off, b :: bs, ram => ramStore pages (off + 1) bs (ramWrite ram (pageAddress pages off) b)

/-- The canonical form of the page memory: addresses strictly rising, no entry equal to the default. -/
def ramWf : List Host.Cell → Bool
  | [] => true
  | [(_, v)] => decide (v ≠ ramDefault)
  | (k, v) :: (k', v') :: rest => decide (v ≠ ramDefault) && decide (k < k') && ramWf ((k', v') :: rest)

/-! ### Notices (R166) -/

/-- A notice's kind. -/
def Notice.kind : Notice → NoticeKind
  | .shock .. => .shock
  | .protectRefused .. => .protectRefused
  | .segmentClosed .. => .segmentClosed
  | .clipEnded .. => .clipEnded
  | .rolloverForced .. => .rolloverForced
  | .cardTaken .. => .cardTaken
  | .cardReturned .. => .cardReturned
  | .cardError .. => .cardError
  | .cardPresence .. => .cardPresence
  | .mediaDiscard .. => .mediaDiscard
  | .motionDrop .. => .motionDrop
  | .cadence .. => .cadence
  | .chargeState .. => .chargeState
  | .powerLow .. => .powerLow
  | .input .. => .input
  | .thermal .. => .thermal
  | .linkOverrun .. => .linkOverrun

/-- The notice set after a notice is raised: a new entry at the tail with count 1, or the kind's entry with its
count one higher, stopping at 65535, and its argument replaced (R166). -/
def noticeAdd (ns : List NoticeEntry) (n : Notice) : List NoticeEntry :=
  if ns.any (fun e => decide (e.notice.kind = n.kind)) then
    ns.map (fun e => if e.notice.kind = n.kind then ⟨min (e.count + 1) 65535, n⟩ else e)
  else ns ++ [⟨1, n⟩]

/-- A notice raised. -/
def State.raise (s : State) (n : Notice) : State :=
  { s with link := { s.link with notices := noticeAdd s.link.notices n } }

/-- A notice raised when `b` holds. -/
def State.raiseIf (s : State) (b : Bool) (n : Notice) : State := if b then s.raise n else s

end Sys2Proof.Machine
end

