-- ==== Sys2Proof/Machine/Rounding.lean ====
section
/-! DEFINITION. The three rounding rules of R32 and the clamp that the parameter tables name. -/
namespace Sys2Proof.Machine

/-- Floor shift of v by n places: the largest integer not greater than v / 2^n (R32). -/
def floorShift (v : Int) (n : Nat) : Int := v / (2 ^ n : Int)

/-- Round half away of a / b, for b positive: the sign of a times the truncating division of 2·|a| + b by 2b
(R32). -/
def roundHalfAway (a : Int) (b : Nat) : Int := a.sign * (((2 * a.natAbs + b) / (2 * b) : Nat) : Int)

/-- Truncating division of a by b, for b positive: rounds toward zero (R32). -/
def truncDiv (a : Int) (b : Int) : Int := Int.tdiv a b

/-- A value clamped to low..high (section 0.6). -/
def clampInt (lo hi v : Int) : Int := if v < lo then lo else if hi < v then hi else v

/-- A signed value saturated to 16 bits (R38). -/
def saturate16 (v : Int) : Int := clampInt (-32768) 32767 v

end Sys2Proof.Machine
end

