-- ==== Sys2Proof/Machine/Charge.lean ====
section
/-! DEFINITION. The charge controller (Chapter 8): zone and die level, hold causes, the stage decision and its
tests, the safety accumulator, the ceiling. -/
namespace Sys2Proof.Machine

/-! ### Zones (R126) -/

/-- The plain zone of a battery temperature (R126). -/
def plainZone (p : ChargeProfile) (t : Int) : Zone :=
  if t < p.t0 then .cold else if t < p.t1 then .cool else if t ≤ p.t2 then .normal
  else if t ≤ p.t3 then .warm else .hot

/-- How far a zone lies from NORMAL, with the sign of its side. -/
def Zone.side : Zone → Int
  | .cold => -2 | .cool => -1 | .normal => 0 | .warm => 1 | .hot => 2

/-- Whether zone a is nearer NORMAL than zone z: it lies between z and NORMAL, or is NORMAL (R126). -/
def Zone.nearer (a z : Zone) : Bool := decide (0 ≤ a.side * z.side) && decide (a.side.natAbs < z.side.natAbs)

/-- The relaxed zone, every threshold moved toward NORMAL by the hysteresis, on the side of z (R126). -/
def relaxedZone (p : ChargeProfile) (z : Zone) (t : Int) : Zone :=
  if z.side < 0 then
    if t < p.t0 + p.hysteresis then .cold else if t < p.t1 + p.hysteresis then .cool else .normal
  else
    if p.t3 - p.hysteresis < t then .hot else if p.t2 - p.hysteresis < t then .warm else .normal

/-- The zone settled from a battery temperature (R126). -/
def settleZone (p : ChargeProfile) (z : Option Zone) (t : Int) : Zone :=
  match z with
  | none => plainZone p t
  | some z =>
    if (plainZone p t).nearer z then (if (relaxedZone p z t).nearer z then relaxedZone p z t else z)
    else plainZone p t

/-- The current limit of a zone; none in force gives none (section 8.2). -/
def ChargeProfile.zoneCurrent (p : ChargeProfile) : Option Zone → Int
  | some .cool => p.coolCurrent
  | some .normal => p.normalCurrent
  | some .warm => p.warmCurrent
  | some .cold | some .hot | none => 0

/-- The voltage limit of a zone; COLD and HOT have none (section 8.2). -/
def ChargeProfile.zoneVoltage (p : ChargeProfile) : Option Zone → Option Int
  | some .cool => some p.coolVoltage
  | some .normal => some p.normalVoltage
  | some .warm => some p.warmVoltage
  | some .cold | some .hot | none => none

/-! ### Die level (R127) -/

/-- The die level settled from a die temperature (R127). -/
def settleDie (p : ChargeProfile) (level : DieLevel) (t : Int) : DieLevel :=
  match level with
  | .ok => if p.tCrit ≤ t then .crit else if p.tWarn ≤ t then .warn else .ok
  | .warn => if p.tCrit ≤ t then .crit else if t < p.tWarn - 50 then .ok else .warn
  | .crit => if p.tCrit - 50 ≤ t then .crit else if p.tWarn - 50 ≤ t then .warn else .ok

/-! ### Stages (section 8.5) -/

/-- FAST, TAPER or TOP_OFF: the fast stages (R136, R140). -/
def Stage.isFast : Stage → Bool
  | .fast | .taper | .topOff => true
  | .idle | .qualify | .precharge | .full | .hold | .fault => false

/-- The stages that a hold cause takes to HOLD (R135). -/
def Stage.isHoldable : Stage → Bool
  | .qualify | .precharge | .fast | .taper | .topOff | .full => true
  | .idle | .hold | .fault => false

/-- The stages whose entry sets the setpoint to 0 at once (R128). -/
def Stage.isRest : Stage → Bool
  | .idle | .qualify | .full | .hold | .fault => true
  | .precharge | .fast | .taper | .topOff => false

/-- The stages whose entry raises CHARGE_STATE (R128). -/
def Stage.isReported : Stage → Bool
  | .full | .hold | .fault => true
  | .idle | .qualify | .precharge | .fast | .taper | .topOff => false

/-- The resume stage recorded when a stage is left for HOLD (R135). -/
def Stage.resumeStage : Stage → Stage
  | .precharge => .precharge
  | .fast | .taper | .topOff => .fast
  | .full => .full
  | .qualify | .idle | .hold | .fault => .qualify

/-- The ceiling of the stage in force, halved at DIE_WARN (section 8.5, R141). -/
def ChargeController.stageCeiling (c : ChargeController) : Int :=
  let base := match c.stage with
    | .precharge => min (c.profile.zoneCurrent c.zone) c.profile.preCurrent
    | .fast | .taper | .topOff => c.profile.zoneCurrent c.zone
    | .idle | .qualify | .full | .hold | .fault => 0
  if c.die = .warn then truncDiv base 2 else base

/-- The ceiling handed over (R141). -/
def State.updateCeiling (s : State) : State :=
  { s with charge := { s.charge with ceiling := s.charge.stageCeiling } }

/-- The full charge of the cell in mA·10 ms (R152). -/
def BudgetCfg.fullCharge (c : BudgetCfg) : Nat := c.capacity.toNat * 360000

/-- The gauge set to full (R134, R154). -/
def Budget.setFull (b : Budget) : Budget := { b with charge := b.cfg.fullCharge, estimated := false }

/-- The budget as a stage is entered: the setpoint to 0 where the stage rests, the gauge to full on FULL (R128,
R134). -/
def Budget.onEnter (b : Budget) (stage : Stage) : Budget :=
  let b1 := if stage.isRest then { b with setpoint := 0 } else b
  if stage = .full then b1.setFull else b1

/-- The charge controller as a stage is entered with an elapsed count: run count 0, E cleared on QUALIFY, a fault
reason only in FAULT, OVER_VOLTAGE dropped in FAULT (R128, R130, R136, R139). -/
def ChargeController.onEnter (c : ChargeController) (stage : Stage) (elapsed : Nat) (fault : Option ChargeFault) :
    ChargeController :=
  { c with
    stage := stage, runCount := 0, elapsed := elapsed, fault := fault
    safety := if stage = .qualify then 0 else c.safety
    causes := if stage = .fault then { c.causes with overVoltage := false } else c.causes
    ovLimit := if stage = .fault then none else c.ovLimit }

/-- The CHARGE_STATE notice of the stage in force (R128). -/
def State.stageNotice (s : State) : Notice :=
  .chargeState s.charge.stage s.charge.fault (if s.charge.stage = .hold then s.charge.causes else .clear)
    s.budget.readings.vbat

/-- A stage entered (R128). -/
def State.enterStage (s : State) (stage : Stage) (elapsed : Nat) (fault : Option ChargeFault) : State :=
  let s1 := { s with charge := s.charge.onEnter stage elapsed fault, budget := s.budget.onEnter stage }
  s1.raiseIf stage.isReported s1.stageNotice

/-- IDLE entered with the input gone: the causes other than INHIBIT dropped (R129). -/
def State.enterIdle (s : State) : State :=
  State.enterStage
    { s with charge := { s.charge with causes := { HoldCauses.clear with inhibit := s.charge.causes.inhibit },
                                       ovLimit := none } }
    .idle 0 none

/-- HOLD entered, with its resume stage; PROFILE makes it QUALIFY; an interrupted PRECHARGE keeps its elapsed count
(R131, R135). -/
def State.enterHold (s : State) : State :=
  let resume := if s.charge.causes.profile then .qualify else s.charge.stage.resumeStage
  let elapsed := if s.charge.stage = .precharge then s.charge.elapsed else 0
  State.enterStage { s with charge := { s.charge with resume := resume } } .hold elapsed none

/-- HOLD left for the resume stage (R137). -/
def State.leaveHold (s : State) : State :=
  s.enterStage s.charge.resume (if s.charge.resume = .precharge then s.charge.elapsed else 0) none

/-! ### Hold causes (R135, R136) -/

/-- Whether OVER_VOLTAGE is judged: in the fast stages, and in HOLD whose resume stage is FAST (R136). -/
def ChargeController.judgesVoltage (c : ChargeController) : Bool :=
  c.stage.isFast || (decide (c.stage = .hold) && decide (c.resume = .fast))

/-- The limit that OVER_VOLTAGE stands on after an update, or none where it does not stand: it clears 100 mV below
its recorded limit or with a change of zone, and is set where the cell is above the zone's limit (R136). After a change
of zone the comparison is made again only where `judgesVoltage` holds, so in HOLD with the resume stage QUALIFY the cause
goes: DESIGN CHOICE (notes/assumptions/31.md). -/
def ChargeController.overVoltage (c : ChargeController) (zoneChanged : Bool) (vbat : Int) : Option Int :=
  let kept := match c.ovLimit with
    | some l => if !c.causes.overVoltage || zoneChanged || decide (vbat < l - 100) then none else some l
    | none => none
  match c.profile.zoneVoltage c.zone with
  | some l => if c.judgesVoltage && decide (l < vbat) then some l else kept
  | none => kept

/-- Zone, die level and hold causes settled from an update's readings (R126, R127, R135, R136). -/
def ChargeController.settle (c : ChargeController) (r : Readings) : ChargeController :=
  let zone := settleZone c.profile c.zone r.tbat
  let changed := decide (c.zone ≠ some zone)
  let die := settleDie c.profile c.die r.tdie
  let c1 := { c with zone := some zone, die := die,
                     runCount := if changed && (decide (c.stage = Stage.fast) || decide (c.stage = Stage.taper)) then 0
                       else c.runCount }
  let ov := c1.overVoltage changed r.vbat
  { c1 with
    ovLimit := ov
    causes := { temp := decide (zone = Zone.cold) || decide (zone = Zone.hot), inhibit := c.inhibit,
                thermal := decide (die = DieLevel.crit), profile := false, overVoltage := ov.isSome } }

/-! ### The stage's own test (R130–R134) -/

/-- The stage's run count and elapsed count replaced. -/
def State.setCounts (s : State) (runCount elapsed : Nat) : State :=
  { s with charge := { s.charge with runCount := runCount, elapsed := elapsed } }

/-- QUALIFY's test (R130). -/
def State.testQualify (s : State) : State :=
  let v := s.budget.readings.vbat
  if s.charge.elapsed + 1 < 50 then s.setCounts s.charge.runCount (s.charge.elapsed + 1)
  else if v < 2000 ∨ 4500 < v then s.enterStage .fault 0 (some .battery)
  else if v < s.charge.profile.preThreshold then s.enterStage .precharge 0 none
  else s.enterStage .fast 0 none

/-- PRECHARGE's test (R131). -/
def State.testPrecharge (s : State) : State :=
  let run := if s.charge.profile.preThreshold ≤ s.budget.readings.vbat then s.charge.runCount + 1 else 0
  if 10 ≤ run then s.enterStage .fast 0 none
  else if s.charge.profile.preMinutes * 6000 ≤ (s.charge.elapsed : Int) + 1 then s.enterStage .fault 0 (some .timer)
  else s.setCounts run (s.charge.elapsed + 1)

/-- FAST's test (R132). -/
def State.testFast (s : State) : State :=
  match s.charge.profile.zoneVoltage s.charge.zone with
  | none => s
  | some l =>
    let run := if l - 20 ≤ s.budget.readings.vbat then s.charge.runCount + 1 else 0
    if 10 ≤ run then s.enterStage .taper 0 none else s.setCounts run s.charge.elapsed

/-- TAPER's test (R133). -/
def State.testTaper (s : State) : State :=
  let term := s.charge.profile.termination
  let run :=
    if s.budget.inForce < 2 * term then s.charge.runCount
    else if s.budget.readings.ibat ≤ term then s.charge.runCount + 1 else 0
  if 20 ≤ run then s.enterStage .topOff 0 none else s.setCounts run s.charge.elapsed

/-- TOP_OFF's test (R134). -/
def State.testTopOff (s : State) : State :=
  if s.charge.profile.topOffMinutes * 6000 ≤ (s.charge.elapsed : Int) + 1 then s.enterStage .full 0 none
  else s.setCounts s.charge.runCount (s.charge.elapsed + 1)

/-- FULL's test: below the zone's limit less the recharge drop, FAST with E cleared (R134). -/
def State.testFull (s : State) : State :=
  match s.charge.profile.zoneVoltage s.charge.zone with
  | none => s
  | some l =>
    if s.budget.readings.vbat < l - s.charge.profile.rechargeDrop then
      State.enterStage { s with charge := { s.charge with safety := 0 } } .fast 0 none
    else s

/-- The own test of the stage in force. -/
def State.stageTest (s : State) : State :=
  match s.charge.stage with
  | .qualify => s.testQualify
  | .precharge => s.testPrecharge
  | .fast => s.testFast
  | .taper => s.testTaper
  | .topOff => s.testTopOff
  | .full => s.testFull
  | .idle | .hold | .fault => s

/-! ### The stage decision (R128) -/

/-- The safety limit on E: the charge the NORMAL current delivers in the fast safety limit (R140). -/
def ChargeProfile.safetyLimit (p : ChargeProfile) : Int := p.normalCurrent * (p.fastMinutes * 6000)

/-- The setpoint in force added to E in the fast stages (R140). -/
def State.addSafety (s : State) : State :=
  if s.charge.stage.isFast then
    { s with charge := { s.charge with safety := s.charge.safety + s.budget.inForce.toNat } }
  else s

/-- Whether E has reached its limit in a fast stage (R140). -/
def State.safetyReached (s : State) : Bool :=
  s.charge.stage.isFast && decide (s.charge.profile.safetyLimit ≤ (s.charge.safety : Int))

/-- The parts of the decision that follow the input's: safety fault, HOLD, the own test, each only where the parts
before it left the stage (R128). -/
def State.decideCharging (s : State) : State :=
  let s1 := s.addSafety
  if s1.safetyReached then s1.enterStage .fault 0 (some .timer)
  else if s1.charge.stage = .hold then (if s1.charge.causes.any then s1 else s1.leaveHold)
  else if s1.charge.stage.isHoldable && s1.charge.causes.any then s1.enterHold
  else s1.stageTest

/-- The stage decision of an update, the hold causes settled (R128, R129). -/
def State.decideStage (s : State) : State :=
  if s.charge.stage = .idle then
    if s.budget.inputPresent then (if s.charge.causes.any then s.enterHold else s.enterStage .qualify 0 none)
    else s
  else if s.budget.inputPresent then s.decideCharging
  else s.enterIdle

/-- The charge controller's part of an update: zone, die level with THERMAL, hold causes, the stage decision, the
ceiling (R128, R141, R144 step 3). -/
def State.chargeUpdate (s : State) : State :=
  let c := s.charge.settle s.budget.readings
  let s1 := State.raiseIf { s with charge := c } (decide (c.die ≠ s.charge.die)) (.thermal c.die s.budget.readings.tdie)
  s1.decideStage.updateCeiling

end Sys2Proof.Machine
end

