-- ==== Sys2Proof/Machine/Budget.lean ====
section
/-! DEFINITION. The input budget and gauge (Chapter 9, R124): the readings of a monitor update, the input state, the
gauge, the setpoint, the burst grant and the low-power test. -/
namespace Sys2Proof.Machine

/-! ### Readings (R143) -/

/-- The average of four conversions, each clamped to its range first (R143). -/
def Quad.reading (lo hi : Int) (q : Quad) : Int :=
  truncDiv (clampInt lo hi q.c0 + clampInt lo hi q.c1 + clampInt lo hi q.c2 + clampInt lo hi q.c3) 4

/-- The six readings of a pass (R143). -/
def readingsOf (c : Conversions) : Readings :=
  { vbat := Quad.reading 0 5500 c.vbat, ibat := Quad.reading (-8000) 8000 c.ibat,
    vin := Quad.reading 0 24000 c.vin, iin := Quad.reading 0 5000 c.iin,
    tbat := Quad.reading (-400) 1500 c.tbat, tdie := Quad.reading (-400) 1500 c.tdie }

/-- The period of the monitor sequencer's passes, in µs (R143). -/
def passUs : Nat := 10000

/-- Whether the pass in progress ends now (R143). -/
def State.passEnded (s : State) : Bool := atOrAfter s.now s.budget.passDue

/-! ### The input state (R124) -/

/-- The input state settled from a VIN reading (R124). -/
def Budget.settleInput (b : Budget) (vin : Int) : Budget :=
  if b.inputPresent then (if vin < b.cfg.absentMv then { b with inputPresent := false } else b)
  else if b.cfg.presentMv ≤ vin then
    if 3 ≤ b.presenceRun + 1 then { b with inputPresent := true, presenceRun := 0 }
    else { b with presenceRun := b.presenceRun + 1 }
  else { b with presenceRun := 0 }

/-- The input state settled at an update, with INPUT on a change (R124). -/
def State.inputUpdate (s : State) : State :=
  let b := s.budget.settleInput s.budget.readings.vin
  State.raiseIf { s with budget := b } (decide (b.inputPresent ≠ s.budget.inputPresent))
    (.input b.inputPresent s.budget.readings.vin)

/-! ### The gauge (R152, R153) -/

/-- The gauge with IBAT added, clamped to 0 and full (R152). -/
def Budget.count (b : Budget) : Budget :=
  { b with charge := min ((b.charge : Int) + b.readings.ibat).toNat b.cfg.fullCharge }

/-- The OCV segment a voltage lies in: its index, its lower point and its width (R153). -/
def ocvSegment (v : Int) : Nat → List Int → Option (Nat × Int × Int)
  | i, a :: b :: rest => if a ≤ v ∧ v < b then some (i, a, b - a) else ocvSegment v (i + 1) (b :: rest)
  | _, _ => none

/-- The charge estimated from a voltage (R153). -/
def Budget.estimate (b : Budget) (vbat : Int) : Nat :=
  if vbat ≤ b.ocv.getD 0 0 then 0
  else if b.ocv.getD 10 0 ≤ vbat then b.cfg.fullCharge
  else
    match ocvSegment vbat 0 b.ocv with
    | none => b.cfg.fullCharge
    | some (i, v, d) => (roundHalfAway (b.cfg.capacity * 36000 * ((i : Int) * d + vbat - v)) d.toNat).toNat

/-- The gauge's part of an update: IBAT counted, or an estimate in its place (R152, R153). -/
def Budget.gaugeUpdate (b : Budget) : Budget :=
  if b.estimateDue then { b with charge := b.estimate b.readings.vbat, estimateDue := false } else b.count

/-- The percent of charge (R152). -/
def Budget.percent (b : Budget) : Nat := b.charge * 100 / b.cfg.fullCharge

/-! ### The setpoint (R147, R148) -/

/-- The effective limit: the reserve is subtracted while the grant is PENDING or HELD (R147). -/
def Budget.effectiveLimit (b : Budget) : Int :=
  b.inputLimit - b.cfg.headroom - (if b.grant = .none then 0 else b.cfg.burstReserve)

/-- The ramp interval in updates, never less than 1 (R148). -/
def ChargeProfile.rampUpdates (p : ChargeProfile) : Nat := max ((truncDiv p.rampMs 10).toNat) 1

/-- Whether the updates since the last rise, this update counted, allow a rise (R148). -/
def waitedEnough (since : Option Nat) (updates : Nat) : Bool :=
  match since with
  | none => true
  | some n => decide (updates ≤ n)

/-- The setpoint moved under a ceiling: lowered to it, backed off, or raised (R148). A rise is a setpoint that
goes up (notes/assumptions/17.md). -/
def Budget.moveSetpoint (b : Budget) (p : ChargeProfile) (ceiling : Int) : Budget :=
  let since := b.sinceRise.map (fun n => min (n + 1) 100)
  let limit := b.effectiveLimit
  let low := min b.setpoint ceiling
  let b1 := { b with limitEff := limit, sinceRise := since }
  let set := fun (b : Budget) (v : Int) => { b with setpoint := v, inForce := v }
  if limit < b.readings.iin ∨ b.readings.vin < b.cfg.vinMin then set b1 (max (low - p.backOff) 0)
  else if b.readings.iin < limit - b.cfg.band ∧ waitedEnough since p.rampUpdates ∧ b.grant = .none ∧ low < ceiling then
    set { b1 with sinceRise := some 0 } (min (low + p.rampStep) ceiling)
  else set b1 low

/-! ### The burst grant (R150) -/

/-- A PENDING grant given at the end of an update (R150). -/
def Budget.decideGrant (b : Budget) : Budget :=
  if b.grant = .pending ∧ (b.readings.iin ≤ b.limitEff ∨ b.setpoint = 0 ∨ b.inputPresent = false) then
    { b with grant := .held }
  else b

/-! ### Low power (R155) -/

/-- Whether Q is at or below the close reserve (R155). -/
def Budget.chargeLow (b : Budget) : Bool := decide (b.charge ≤ b.cfg.closeReserve.toNat * 360000)

/-- Whether VBAT is at or below the cutoff (R155). -/
def Budget.voltageLow (b : Budget) : Bool := decide (b.readings.vbat ≤ b.cfg.cutoff)

/-- The low condition (R155). -/
def Budget.lowCondition (b : Budget) : Bool := !b.inputPresent && (b.chargeLow || b.voltageLow)

/-- The cause a POWER_LOW gives (R155). -/
def Budget.lowCause (b : Budget) : LowCause :=
  if b.chargeLow && b.voltageLow then .both else if b.chargeLow then .charge else .voltage

/-- The low run and low state after an update is judged (R155). -/
def Budget.judgeLow (b : Budget) : Budget :=
  if b.lowCondition then { b with lowRun := min (b.lowRun + 1) 5 } else { b with lowRun := 0, lowState := false }

/-- The POWER_LOW notice of an update (R155). -/
def Budget.powerLow (b : Budget) (ordered : Bool) : Notice := .powerLow b.lowCause b.percent b.readings.vbat ordered

/-- The low-power test: at a low run of 5, an open clip is ordered closed once, and with no clip open the low state
is set (R155). -/
def State.lowTest (s : State) : State :=
  let b := s.budget.judgeLow
  let s1 := { s with budget := b }
  if b.lowRun < 5 then s1
  else if s.clip.state.isOpen then
    if b.ordered then s1
    else State.raise { s with budget := { b with ordered := true, orderPending := true, lowState := true } }
      (b.powerLow true)
  else if b.lowState then s1
  else State.raise { s with budget := { b with lowState := true } } (b.powerLow false)

/-! ### The monitor update (R144) -/

/-- The readings of a pass taken, one more update counted, the next pass begun (R143). -/
def Budget.takeReadings (b : Budget) (r : Readings) : Budget :=
  { b with readings := r, updates := b.updates + 1, passDue := later b.passDue passUs }

/-- One monitor update: input, gauge, charge controller, setpoint, grant, low-power test, in that order (R144). -/
def State.monitorUpdate (s : State) (conv : Conversions) : State :=
  let s1 := State.inputUpdate { s with budget := s.budget.takeReadings (readingsOf conv) }
  let s2 := State.chargeUpdate { s1 with budget := s1.budget.gaugeUpdate }
  let b := (s2.budget.moveSetpoint s2.charge.profile s2.charge.ceiling).decideGrant
  State.lowTest { s2 with budget := b }

end Sys2Proof.Machine
end

