-- ==== Sys2Proof/Machine/Operands.lean ====
section
/-! DEFINITION. Operand forms: little-endian fields (Chapter 11), the sensor's sample bytes (R15), the entries of a
table load (R164, R176) and their overlay on a table's contents. -/
namespace Sys2Proof.Machine

/-! ### Byte order (Chapter 11) -/

/-- The n bytes of v, least significant first. -/
def leBytes : Nat → Nat → List Byte
  | 0, _ => []
  | n + 1, v => BitVec.ofNat 8 v :: leBytes n (v / 256)

/-- The n bytes of a signed value, sign-extended, least significant first. -/
def leSigned (n : Nat) (v : Int) : List Byte := leBytes n (v % (2 ^ (8 * n) : Int)).toNat

/-- The value of bytes, least significant first. -/
def leNat : List Byte → Nat
  | [] => 0
  | b :: bs => b.toNat + 256 * leNat bs

/-- The value of bytes read as a signed 32-bit word. -/
def leInt32 (bs : List Byte) : Int := (BitVec.ofNat 32 (leNat bs)).toInt

/-- `n` bytes of a list from offset `off`. -/
def slice (bs : List Byte) (off n : Nat) : List Byte := (bs.drop off).take n

/-- A list cut into pieces of n bytes, `k` of them. -/
def pieces (n : Nat) : Nat → List Byte → List (List Byte)
  | 0, _ => []
  | k + 1, bs => bs.take n :: pieces n k (bs.drop n)

/-! ### The sample bytes (R15) -/

/-- A sample record: raw gyro and accelerometer values, the temperature word and the DR timestamp (R18). -/
structure Sample where
  gx : Int
  gy : Int
  gz : Int
  ax : Int
  ay : Int
  az : Int
  temp : Int
  stamp : Time
  deriving DecidableEq, Repr

/-- Field i of the 14 sample bytes: signed 16 bits, high byte first (R15). -/
def sampleField (bytes : List Byte) (i : Nat) : Int :=
  (BitVec.ofNat 16 ((bytes.getD (2 * i) 0).toNat * 256 + (bytes.getD (2 * i + 1) 0).toNat)).toInt

/-- The sample record of R18 from the bytes of the read and the timestamp of its edge. -/
def sampleOf (bytes : List Byte) (stamp : Time) : Sample :=
  { gx := sampleField bytes 0, gy := sampleField bytes 1, gz := sampleField bytes 2,
    ax := sampleField bytes 3, ay := sampleField bytes 4, az := sampleField bytes 5,
    temp := sampleField bytes 6, stamp := stamp }

/-! ### Table loads (R164, R176) -/

/-- R164 for a table of `entries` entries of `size` bytes: the count is not 0, the range fits and the payload is
the count times the entry size. -/
def loadFits (p : Packet) (entries size : Nat) : Bool :=
  decide (p.header.entryCount ≠ 0) &&
  decide (p.header.firstEntry + p.header.entryCount ≤ entries) &&
  decide (p.payload.length = p.header.entryCount * size)

/-- R164 for SEGMENT: the first-entry field is not used and the count is at most 64. -/
def segmentFits (p : Packet) : Bool :=
  decide (p.header.entryCount ≠ 0) && decide (p.header.entryCount ≤ 64) &&
  decide (p.payload.length = p.header.entryCount * 6)

/-- The loaded entries of 4 bytes, as signed words (R176). -/
def loadedInts (p : Packet) : List Int := (pieces 4 p.header.entryCount p.payload).map leInt32

/-- The loaded entries of 4 bytes, as unsigned words (R176). -/
def loadedWords (p : Packet) : List Nat := (pieces 4 p.header.entryCount p.payload).map leNat

/-- Entries written over a copy of a table's contents, from entry `first` on (R164). -/
def overlay {α : Type} (cur : List α) (first : Nat) (new : List α) : List α :=
  cur.take first ++ new ++ cur.drop (first + new.length)

/-- R164 for MOTION_CFG: the load starts at entry 0, gives the 8 leading fields, and, when its init count lies
within 0..16, exactly as many pairs. -/
def motionCfgFits (p : Packet) : Bool :=
  loadFits p 24 4 && decide (p.header.firstEntry = 0) && decide (8 ≤ p.header.entryCount) &&
  (let n := leInt32 (slice p.payload 28 4)
   !(decide (0 ≤ n) && decide (n ≤ 16)) || decide ((p.header.entryCount : Int) = 8 + n))

/-- Whether a load fits the table it names; no load fits a code that names no loadable table (R164). -/
def fitsTable (p : Packet) : Bool :=
  match p.header.tableCode with
  | 1 => loadFits p 1024 4
  | 2 => segmentFits p
  | 3 => loadFits p 27 4
  | 4 => loadFits p 3 2
  | 5 => loadFits p 13 4
  | 6 => motionCfgFits p
  | 7 => loadFits p 11 4
  | 8 => loadFits p 23 4
  | 9 => loadFits p 11 4
  | 10 => loadFits p 9 4
  | _ => false

end Sys2Proof.Machine
end

