-- ==== Sys2Proof/Machine/Formats.lean ====
section
/-! DEFINITION. The codes of R173 and R174 and the byte layouts of the structures the part forms: packets, notice
arguments, frame records, on-card headers, table entries as read (R174–R176). -/
namespace Sys2Proof.Machine

/-! ### Codes (R173, R174) -/

/-- A yes-or-no field. -/
def flagByte (b : Bool) : Byte := if b then 1 else 0

/-- Result codes (R173). -/
def ResultCode.code : ResultCode → Nat
  | .ok => 0 | .busy => 1 | .badArg => 2 | .badTable => 3 | .limit => 4 | .noCard => 5 | .noSegment => 6
  | .unknown => 7

/-- Chunk kinds (R173). -/
def ChunkKind.code : ChunkKind → Nat
  | .video => 1 | .audio => 2 | .data => 3 | .motion => 4

/-- Segment states (R173). -/
def SlotState.code : SlotState → Nat
  | .empty => 0 | .free => 1 | .filling => 2 | .closed => 3 | .interrupted => 4 | .unusable => 5

/-- Protection (R173). -/
def protectionCode : Option Protection → Nat
  | none => 0
  | some .shock => 1
  | some .host => 2

/-- End reasons of a segment (R173). -/
def EndReason.code : EndReason → Nat
  | .stop => 1 | .rollover => 2 | .forced => 3 | .ringFull => 4 | .emergency => 5 | .damaged => 6

/-- End reasons, absent included (R173). -/
def endReasonCode : Option EndReason → Nat
  | none => 0
  | some r => r.code

/-- Clip recorder states (R173). -/
def ClipState.code : ClipState → Nat
  | .idle => 0 | .recording => 1 | .rolloverWait => 2 | .closing => 3 | .emergency => 4

/-- Card states (R173). -/
def CardState.code : CardState → Nat
  | .absent => 0 | .init => 1 | .ready => 2 | .sleep => 3 | .run => 4 | .recover => 5 | .yielded => 6 | .fault => 7

/-- Log kinds (R173). -/
def LogKind.code : LogKind → Nat
  | .corrected => 0 | .blockFailed => 1 | .busyTimeout => 2 | .noResponse => 3 | .cardRemoved => 4
  | .initFailed => 5

/-- Charge stages (R173). -/
def Stage.code : Stage → Nat
  | .idle => 0 | .qualify => 1 | .precharge => 2 | .fast => 3 | .taper => 4 | .topOff => 5 | .full => 6
  | .hold => 7 | .fault => 8

/-- Fault reasons (R173). -/
def chargeFaultCode : Option ChargeFault → Nat
  | none => 0
  | some .battery => 1
  | some .timer => 2

/-- Hold causes: bit 0 TEMP to bit 4 OVER_VOLTAGE (R173). -/
def HoldCauses.code (c : HoldCauses) : Nat :=
  c.temp.toNat + 2 * c.inhibit.toNat + 4 * c.thermal.toNat + 8 * c.profile.toNat + 16 * c.overVoltage.toNat

/-- Zones, COLD 0 to HOT 4 (R173). -/
def Zone.code : Zone → Nat
  | .cold => 0 | .cool => 1 | .normal => 2 | .warm => 3 | .hot => 4

/-- Die levels (R173). -/
def DieLevel.code : DieLevel → Nat
  | .ok => 0 | .warn => 1 | .crit => 2

/-- IMU port states (R173). -/
def PortState.code : PortState → Nat
  | .stopped => 0 | .init => 1 | .idle => 2 | .reading => 3

/-- Grant states (R173). -/
def Grant.code : Grant → Nat
  | .none => 0 | .pending => 1 | .held => 2

/-- LOST 0, LOCKED 1 (R174). -/
def Cadence.code : Cadence → Nat
  | .lost => 0 | .locked => 1

/-- FS 0, DR 1 (R174). -/
def channelCode : Channel → Nat
  | .fs => 0 | .dr => 1

/-- Reasons of CLIP_ENDED (R174). -/
def ClipEnd.code : ClipEnd → Nat
  | .stop => 0 | .ringFull => 1 | .emergency => 2 | .cardAbsent => 3

/-- Reasons of MEDIA_DISCARD (R174). -/
def DiscardReason.code : DiscardReason → Nat
  | .notRecording => 0 | .noSpace => 1 | .emergency => 2 | .parked => 3

/-- Reasons of MOTION_DROP (R174). -/
def DropReason.code : DropReason → Nat
  | .sendFull => 0 | .noDescriptor => 1 | .noPage => 2

/-- Causes of POWER_LOW (R174). -/
def LowCause.code : LowCause → Nat
  | .charge => 0 | .voltage => 1 | .both => 2

/-- Reasons of LINK_OVERRUN (R174). -/
def OverrunReason.code : OverrunReason → Nat
  | .badKind => 0 | .badLength => 1 | .tooMany => 2

/-- Packet kind codes of requests (R174). -/
def RequestKind.code : RequestKind → Nat
  | .command => 2 | .tableLoad => 3 | .tableRead => 4

/-- Notice codes (R174). -/
def NoticeKind.code : NoticeKind → Nat
  | .shock => 1 | .protectRefused => 2 | .segmentClosed => 3 | .clipEnded => 4 | .rolloverForced => 5
  | .cardTaken => 6 | .cardReturned => 7 | .cardError => 8 | .cardPresence => 9 | .mediaDiscard => 10
  | .motionDrop => 11 | .cadence => 12 | .chargeState => 13 | .powerLow => 14 | .input => 15 | .thermal => 16
  | .linkOverrun => 17

/-! ### Frame records and on-card headers (R175) -/

/-- A byte list filled with zeros to n bytes. -/
def padTo (n : Nat) (bs : List Byte) : List Byte := bs ++ List.replicate (n - bs.length) 0

/-- The flag bits of a frame record, bit 0 MARGIN_X to bit 8 CADENCE_LOST (R175). -/
def FrameFlags.code (f : FrameFlags) : Nat :=
  f.marginX.toNat + 2 * f.marginY.toNat + 4 * f.marginRoll.toNat + 8 * f.saturated.toNat + 16 * f.gap.toNat +
  32 * f.truncated.toNat + 64 * f.shock.toNat + 128 * f.uncalibrated.toNat + 256 * f.cadenceLost.toNat

/-- A frame record: 24 bytes and 4 for each band entry (R175). -/
def FrameRecord.bytes (r : FrameRecord) : List Byte :=
  padTo 24 (leBytes 4 r.number.toNat ++ leBytes 8 r.stamp.toNat ++ leBytes 1 r.bands ++ leBytes 1 r.shocks ++
    leBytes 2 r.flags.code ++ leSigned 2 r.roll) ++
  r.entries.flatMap (fun e => leSigned 2 e.1 ++ leSigned 2 e.2)

/-- The on-card chunk header (R61, R175). -/
def chunkHeader (kind : ChunkKind) (key : Bool) (length : Nat) (seq : Word32) (hostTime : Time) : List Byte :=
  padTo 16 (leBytes 1 kind.code ++ [flagByte key] ++ leBytes 2 length ++ leBytes 4 seq.toNat ++
    leBytes 5 hostTime.toNat)

/-- Byte i of a filler of r bytes: with r at least 16 a PAD header whose length field is r − 16 and zeros, with r
below 16 zeros (R77, R175). -/
def fillerByte (r i : Nat) : Byte :=
  if 16 ≤ r then (padTo 16 (leBytes 1 5 ++ leBytes 1 0 ++ leBytes 2 (r - 16))).getD i 0 else 0

/-! ### Packets on the return direction (R174) -/

/-- A packet of the part: kind code, tag byte, payload length, the four kind-specific bytes and the payload. -/
def packetBytes (kind : Nat) (tag : Byte) (tail : List Byte) (payload : List Byte) : List Byte :=
  leBytes 1 kind ++ [tag] ++ leBytes 2 payload.length ++ padTo 4 tail ++ payload

/-- A MOTION packet. -/
def motionPacket (r : FrameRecord) : List Byte := packetBytes 10 0 (leBytes 4 r.number.toNat) r.bytes

/-- An ANSWER packet. -/
def answerPacket (tag : Byte) (code : ResultCode) (data : List Byte) : List Byte :=
  packetBytes 9 tag (leBytes 1 code.code) data

/-- The fields of a notice's argument, laid end to end (R174). -/
def Notice.fields : Notice → List Byte
  | .shock time total => leBytes 8 time.toNat ++ leBytes 4 total.toNat
  | .protectRefused slot time => leBytes 1 slot ++ leBytes 8 time.toNat
  | .segmentClosed slot reason closeSeq => leBytes 1 slot ++ leBytes 1 reason.code ++ leBytes 4 closeSeq.toNat
  | .clipEnded clip reason => leBytes 4 clip.toNat ++ leBytes 1 reason.code
  | .rolloverForced slot seq => leBytes 1 slot ++ leBytes 4 seq.toNat
  | .cardTaken left front => leBytes 1 left.code ++ leBytes 4 front
  | .cardReturned capacity => leBytes 4 capacity.toNat
  | .cardError kind seq => leBytes 1 kind.code ++ leBytes 4 seq.toNat
  | .cardPresence present time => [flagByte present] ++ leBytes 8 time.toNat
  | .mediaDiscard reason hostTime => leBytes 1 reason.code ++ leBytes 8 hostTime.toNat
  | .motionDrop reason first lost => leBytes 1 reason.code ++ leBytes 4 first.toNat ++ leBytes 1 lost
  | .cadence ch state time => leBytes 1 (channelCode ch) ++ leBytes 1 state.code ++ leBytes 8 time.toNat
  | .chargeState stage fault causes vbat =>
    leBytes 1 stage.code ++ leBytes 1 (chargeFaultCode fault) ++ leBytes 1 causes.code ++ leSigned 2 vbat
  | .powerLow cause percent vbat ordered =>
    leBytes 1 cause.code ++ leBytes 1 percent ++ leSigned 2 vbat ++ [flagByte ordered]
  | .input present vin => [flagByte present] ++ leSigned 2 vin
  | .thermal level tdie => leBytes 1 level.code ++ leSigned 2 tdie
  | .linkOverrun reason b0 tag len => leBytes 1 reason.code ++ [b0, tag] ++ leBytes 2 len.toNat

/-- A NOTICE packet: kind, occurrence count and the 16-byte argument. -/
def noticePacket (e : NoticeEntry) : List Byte :=
  packetBytes 11 0 (leBytes 1 e.notice.kind.code ++ leBytes 2 e.count) (padTo 16 e.notice.fields)

/-! ### Table entries as read (R176) -/

/-- An optional 32-bit field: absent reads 0. -/
def optWord (o : Option Word32) : Nat := (o.getD 0).toNat

/-- An optional ride clock field: absent reads 0. -/
def optTime (o : Option Time) : Nat := (o.getD 0).toNat

/-- The presence mask of a SEGMENT read entry (R176). -/
def Slot.mask (x : Slot) : Nat :=
  x.clip.isSome.toNat + 2 * x.firstSeq.isSome.toNat + 4 * x.lastSeq.isSome.toNat + 8 * x.endTime.isSome.toNat +
  16 * x.closeSeq.isSome.toNat + 32 * x.startTime.isSome.toNat

/-- A SEGMENT read entry: 76 bytes (R176). -/
def Slot.bytes (x : Slot) (slot : Nat) : List Byte :=
  leBytes 1 slot ++ leBytes 1 x.state.code ++ leBytes 1 (protectionCode x.prot) ++
  leBytes 1 (endReasonCode x.endReason) ++ leBytes 2 x.first ++ leBytes 2 x.count ++ leBytes 1 x.mask ++
  leBytes 1 x.skips.length ++ leBytes 2 x.shocks ++ leBytes 4 (optWord x.clip) ++ leBytes 4 (optWord x.firstSeq) ++
  leBytes 4 (optWord x.lastSeq) ++ leBytes 8 (optTime x.startTime) ++ leBytes 8 (optTime x.endTime) ++
  leBytes 4 (optWord x.closeSeq) ++ leBytes 8 x.streamLen ++
  padTo 24 (x.skips.flatMap (fun k => leBytes 2 k.1 ++ leBytes 4 k.2))

/-- A LOG entry: 20 bytes (R176). -/
def LogEntry.bytes (e : LogEntry) : List Byte :=
  leBytes 4 e.seq.toNat ++ leBytes 1 e.kind.code ++ leBytes 1 e.attempts ++ leBytes 1 (e.slot.getD 255) ++ [0] ++
  leBytes 4 e.addr ++ leBytes 8 e.time.toNat

/-- A BADLIST entry: 16 bytes (R176). -/
def BadGranule.bytes (e : BadGranule) : List Byte :=
  leBytes 2 e.granule ++ leBytes 1 e.slot ++ [0] ++ leBytes 4 e.addr ++ leBytes 8 e.time.toNat

/-- A MOUNT entry: axis code, then sign code (R176). -/
def MountSource.bytes (m : MountSource) : List Byte := leBytes 1 m.axis ++ [flagByte m.negative]

end Sys2Proof.Machine
end

