-- ==== Sys2Proof/Machine/Buffer.lean ====
section
/-! DEFINITION. The chunk buffer and write queue (Chapter 5): descriptors and pages, discard, pending bytes, the run
triggers and the HOLD line. -/
namespace Sys2Proof.Machine

/-! ### Chunks (R61) -/

/-- A chunk's stream bytes: its on-card header and its payload (R61). -/
def Chunk.streamBytes (c : Chunk) : Nat := 16 + c.length

/-- The pages a chunk of the given payload needs (R61). -/
def pagesFor (payload : Nat) : Nat := (16 + payload + 4095) / 4096

/-- The chunk's stream end in the segment while its placement stands. -/
def Chunk.streamEnd (c : Chunk) : Nat := c.place.getD 0 + c.streamBytes

/-- Free descriptors (R62). -/
def ChunkBuffer.freeDescriptors (b : ChunkBuffer) : Nat := 256 - b.queue.length

/-! ### Creating a descriptor (R60, R61, R62, R64) -/

/-- A descriptor created at the tail: pages from the head of the free list, the next sequence number, the on-card
header stored as its first 16 stream bytes, one more accepted chunk. -/
def ChunkBuffer.create (b : ChunkBuffer) (kind : ChunkKind) (key : Bool) (hostTime : Time) (arrival : Option Time)
    (length : Nat) (state : ChunkState) : ChunkBuffer :=
  let pages := b.free.take (pagesFor length)
  { b with
    ram := ramStore pages 0 (chunkHeader kind key length b.nextSeq hostTime) b.ram
    free := b.free.drop (pagesFor length)
    queue := b.queue ++
      [{ seq := b.nextSeq, kind := kind, key := key, hostTime := hostTime, arrival := arrival, length := length,
         pages := pages, acked := 0, state := state, place := none }]
    nextSeq := b.nextSeq + 1
    accepted := b.accepted + 1 }

/-- Payload bytes stored after a chunk's on-card header (R66). -/
def ChunkBuffer.storePayload (b : ChunkBuffer) (pages : List Nat) (payload : List Byte) : ChunkBuffer :=
  { b with ram := ramStore pages 16 payload b.ram }

/-! ### Leaving the queue (R60, R71, R78) -/

/-- A pending flush whose mark has left the queue is satisfied (R78). -/
def ChunkBuffer.clearFlush (b : ChunkBuffer) : ChunkBuffer :=
  match b.flush with
  | none => b
  | some m => if b.queue.any (fun c => decide (c.seq = m)) then b else { b with flush := none }

/-- The descriptors that satisfy `p` discarded: their pages to the tail of the free list, each counted (R71). Of several
discarded in one event the pages return in queue order, each chunk's in stream order: DESIGN CHOICE, R60 gives the order
within a chunk only (notes/assumptions/29.md). -/
def ChunkBuffer.discardWhere (b : ChunkBuffer) (p : Chunk → Bool) : ChunkBuffer :=
  ChunkBuffer.clearFlush
    { b with
      queue := b.queue.filter (fun c => !p c)
      free := b.free ++ (b.queue.filter p).flatMap Chunk.pages
      discarded := b.discarded + BitVec.ofNat 32 (b.queue.filter p).length }

/-- Every descriptor discarded. -/
def ChunkBuffer.discardAll (b : ChunkBuffer) : ChunkBuffer := b.discardWhere (fun _ => true)

/-- Place of a descriptor in the queue, by sequence number. -/
def ChunkBuffer.indexOf (b : ChunkBuffer) (seq : Word32) : Nat := b.queue.findIdx (fun c => decide (c.seq = seq))

/-- A descriptor and every descriptor after it discarded, their pages returning in queue order (R100; DESIGN CHOICE,
notes/assumptions/29.md). -/
def ChunkBuffer.discardFrom (b : ChunkBuffer) (seq : Word32) : ChunkBuffer :=
  let kept := b.queue.take (b.indexOf seq)
  let gone := b.queue.drop (b.indexOf seq)
  ChunkBuffer.clearFlush
    { b with queue := kept, free := b.free ++ gone.flatMap Chunk.pages,
             discarded := b.discarded + BitVec.ofNat 32 gone.length }

/-- Whether a descriptor's stream bytes are all acknowledged where it stands placed (R70). -/
def Chunk.isWritten (c : Chunk) : Bool :=
  decide (c.state = .placed) && c.place.isSome && decide (c.streamBytes ≤ c.acked)

/-- The descriptors at the head that have become WRITTEN. -/
def ChunkBuffer.writtenHead (b : ChunkBuffer) : List Chunk := b.queue.takeWhile Chunk.isWritten

/-- The descriptors that have become WRITTEN leave from the head, their pages freed, each counted (R70). -/
def ChunkBuffer.popWritten (b : ChunkBuffer) : ChunkBuffer :=
  ChunkBuffer.clearFlush
    { b with
      queue := b.queue.dropWhile Chunk.isWritten
      free := b.free ++ b.writtenHead.flatMap Chunk.pages
      written := b.written + BitVec.ofNat 32 b.writtenHead.length }

/-- Descriptors changed in place. -/
def ChunkBuffer.mapQueue (b : ChunkBuffer) (f : Chunk → Chunk) : ChunkBuffer := { b with queue := b.queue.map f }

/-! ### Pending bytes and run triggers (R73–R75) -/

/-- The bytes of a descriptor still to be written: none while RECEIVING (R73). -/
def Chunk.pendingBytes (c : Chunk) : Nat :=
  match c.state with
  | .receiving => 0
  | .ready => c.streamBytes
  | .placed => c.streamBytes - c.acked

/-- The pending bytes of descriptors. -/
def pendingSum (q : List Chunk) : Nat := (q.map Chunk.pendingBytes).sum

/-- The next multiple of 512 at or above n. -/
def roundUp512 (n : Nat) : Nat := (n + 511) / 512 * 512

/-- The pending bytes: while a flush is pending, those up to the mark's chunk count rounded up to a whole block
(R73). -/
def ChunkBuffer.pendingBytes (b : ChunkBuffer) : Nat :=
  match b.flush with
  | none => pendingSum b.queue
  | some m =>
    roundUp512 (pendingSum (b.queue.take (b.indexOf m + 1))) + pendingSum (b.queue.drop (b.indexOf m + 1))

/-- The whole pending blocks (R73). -/
def ChunkBuffer.wholeBlocks (b : ChunkBuffer) : Nat := b.pendingBytes / 512

/-- The arrival time of a READY or PLACED descriptor. -/
def Chunk.waitingSince (c : Chunk) : Option Time := if c.state = .receiving then none else c.arrival

/-- The earliest arrival time among the READY and PLACED descriptors (R75). -/
def earliestArrival : List Chunk → Option Time
  | [] => none
  | c :: cs =>
    match c.waitingSince, earliestArrival cs with
    | some a, some b => some (earlier a b)
    | some a, none => some a
    | none, r => r

/-- The latency deadline brought up to date: set again when the earliest arrival changes; a deadline set in the
past has expired already (R74, R75). -/
def ChunkBuffer.syncLatency (b : ChunkBuffer) (now : Time) (latencyMs : Nat) : ChunkBuffer :=
  let d := (earliestArrival b.queue).map (fun a => later a (1000 * latencyMs))
  if d = b.latDeadline then b else { b with latDeadline := d, latExpired := reached now d }

/-- The batch trigger (R74). -/
def ChunkBuffer.batchDue (b : ChunkBuffer) (batchKiB : Nat) : Bool := decide (1024 * batchKiB ≤ b.pendingBytes)

/-- Whether run due stands: the batch, the latency or the flush trigger (R74). -/
def ChunkBuffer.runDue (b : ChunkBuffer) (batchKiB : Nat) : Bool :=
  b.batchDue batchKiB || (b.latExpired && decide (1 ≤ b.wholeBlocks)) ||
  (b.flush.isSome && decide (0 < b.pendingBytes))

/-! ### HOLD (R68) -/

/-- Whether the buffer is short of room: fewer than 18 free pages or fewer than 2 free descriptors (R68). -/
def ChunkBuffer.short (b : ChunkBuffer) : Bool := decide (b.free.length < 18) || decide (b.freeDescriptors < 2)

/-- HOLD brought up to date (R68). -/
def ChunkBuffer.syncHold (b : ChunkBuffer) : ChunkBuffer := { b with hold := b.short }

/-- Whether a media chunk of the given payload has room: a free descriptor, and pages beyond the motion reserve
of two (R65, R69). -/
def ChunkBuffer.hasRoom (b : ChunkBuffer) (payload : Nat) : Bool :=
  decide (0 < b.freeDescriptors) && decide (pagesFor payload + 2 ≤ b.free.length)

end Sys2Proof.Machine
end

