-- ==== Sys2Proof/Machine/Clip.lean ====
section
/-! DEFINITION. The clip recorder (Chapter 6): the clip area and block map, the search for a slot, placement,
rollover and close, acknowledgements, skips, shock protection, and the ways a clip ends. -/
namespace Sys2Proof.Machine

/-! ### Geometry (R82, R88, R89) -/

/-- The granule size G in blocks (R82). -/
def ClipCfg.granuleBlocks (c : ClipCfg) : Nat := 16384 * 2 ^ c.sizeCode

/-- The card block of block o of granule g (R82). -/
def ClipCfg.blockOf (c : ClipCfg) (g o : Nat) : Nat := c.areaBase + g * c.granuleBlocks + o

/-- Whether granule g lies within a card of the given capacity: its last block is below it (R82). -/
def ClipCfg.withinCard (c : ClipCfg) (capacity g : Nat) : Bool :=
  decide (c.areaBase + (g + 1) * c.granuleBlocks ≤ capacity)

/-- Whether the part may write granule g: its window bit is set and it lies within the card (R82, R83). -/
def State.granuleWritable (s : State) (g : Nat) : Bool :=
  s.clip.window.getLsbD g && s.clip.cfg.withinCard s.card.capacity.toNat g

/-- Whether granule g is on the bad-granule list (R112). -/
def CardController.isBad (c : CardController) (g : Nat) : Bool := c.badList.any (fun e => decide (e.granule = g))

/-- The contribution of granule g at a take (R88). -/
def State.contribution (s : State) (g : Nat) : Nat :=
  if s.granuleWritable g && !s.card.isBad g then s.clip.cfg.granuleBlocks else 0

/-- One slot of the segment table. -/
def ClipRecorder.slot (c : ClipRecorder) (i : Nat) : Slot := (c.slots[i]?).getD Slot.reset

/-- One slot of the segment table replaced. -/
def ClipRecorder.setSlot (c : ClipRecorder) (i : Nat) (x : Slot) : ClipRecorder :=
  { c with slots := c.slots.setIfInBounds i x }

/-- One slot of the segment table replaced. -/
def State.setSlot (s : State) (i : Nat) (x : Slot) : State := { s with clip := s.clip.setSlot i x }

/-- The contributions of a slot's granules, in ascending order (R88). -/
def State.contributions (s : State) (i : Nat) : List Nat :=
  (List.range (s.clip.slot i).count).map (fun j => s.contribution ((s.clip.slot i).first + j))

/-- The usable blocks of the segment being filled (R88). -/
def Filling.usable (f : Filling) : Nat := f.contrib.sum

/-- The capacity in bytes (R88). -/
def Filling.capacity (f : Filling) : Nat := f.usable * 512

/-- The rollover threshold in bytes (R88). -/
def Filling.threshold (f : Filling) (allowance : Nat) : Nat := (f.usable - allowance) * 512

/-- The writable blocks: placed whole and not yet acknowledged (R106). -/
def Filling.writable (f : Filling) : Nat := f.placement / 512 - f.front

/-- Where stream block n lies in a list of contributions: the granule's index in the extent, the block's offset in
it, and the contributing blocks from there to its end (R89). -/
def locate : List Nat → Nat → Option (Nat × Nat × Nat)
  | [], _ => none
  | c :: cs, n => if n < c then some (0, n, c - n) else (locate cs (n - c)).map (fun r => (r.1 + 1, r.2))

/-- The card address of stream block n of the FILLING segment (R89). -/
def State.blockAddress (s : State) (n : Nat) : Option Nat :=
  match s.clip.filling with
  | none => none
  | some f => (locate f.contrib n).map (fun r => s.clip.cfg.blockOf ((s.clip.slot f.slot).first + r.1) r.2.1)

/-! ### The segment's stream -/

/-- The rest of a block that the stream stops partway through is filled: the filler's start is noted and the
placement position moves to the block boundary (R77). -/
def Filling.endStream (f : Filling) : Filling :=
  if f.placement % 512 = 0 then f
  else { f with fillers := f.fillers ++ [f.placement], placement := (f.placement / 512 + 1) * 512 }

/-- The segment being filled replaced. -/
def State.setFilling (s : State) (f : Filling) : State := { s with clip := { s.clip with filling := some f } }

/-- The clip recorder's state replaced. -/
def State.setClipState (s : State) (x : ClipState) : State := { s with clip := { s.clip with state := x } }

/-- The byte at position p of the FILLING segment's stream: that of the chunk placed over it, or of a filler
(R77, R108). -/
def State.streamByte (s : State) (f : Filling) (p : Nat) : Byte :=
  match s.buffer.queue.find? (fun c => c.place.isSome && decide (c.place.getD 0 ≤ p) && decide (p < c.streamEnd)) with
  | some c => ramRead s.buffer.ram (pageAddress c.pages (p - c.place.getD 0))
  | none =>
    match f.fillers.find? (fun st => decide (st ≤ p) && decide (p / 512 = st / 512)) with
    | some st => fillerByte (512 - st % 512) (p - st)
    | none => 0

/-- The 512 bytes of stream block n (R108). -/
def State.blockBytes (s : State) (f : Filling) (n : Nat) : List Byte :=
  (List.range 512).map (fun j => s.streamByte f (512 * n + j))

/-- The sequence number of the last descriptor whose placement stands. -/
def ChunkBuffer.lastPlaced (b : ChunkBuffer) : Option Word32 :=
  ((b.queue.filter (fun c => c.place.isSome)).getLast?).map Chunk.seq

/-- The sequence number of the last descriptor in the queue. -/
def ChunkBuffer.lastQueued (b : ChunkBuffer) : Option Word32 := b.queue.getLast?.map Chunk.seq

/-! ### Flush (R76, R77) -/

/-- The later of a pending mark and a requested one, in queue order (R76). -/
def ChunkBuffer.combineMark (b : ChunkBuffer) (mark : Word32) : Word32 :=
  match b.flush with
  | none => mark
  | some old => if b.indexOf mark ≤ b.indexOf old then old else mark

/-- The filler after the mark's chunk when that chunk was placed before the flush request and ends the stream
(R77). -/
def State.padMark (s : State) : State :=
  match s.clip.filling, s.buffer.flush with
  | some f, some m =>
    if s.buffer.queue.any (fun c => decide (c.seq = m) && c.place.isSome && decide (c.streamEnd = f.placement)) then
      s.setFilling f.endStream
    else s
  | _, _ => s

/-- A mark combined with the pending flush; with no mark, none becomes pending (R76). -/
def State.markFlush (s : State) (mark : Option Word32) : State :=
  match mark with
  | none => s
  | some m => { s with buffer := { s.buffer with flush := some (s.buffer.combineMark m) } }

/-- A flush requested with a mark (R76, R77). -/
def State.requestFlush (s : State) (mark : Option Word32) : State :=
  match mark with
  | none => s
  | some m => (s.markFlush (some m)).padMark

/-! ### Slots: taking, closing (R84, R91, R95) -/

/-- A slot with its optional fields absent. -/
def Slot.withoutOptional (x : Slot) : Slot :=
  { x with clip := none, firstSeq := none, lastSeq := none, startTime := none, endTime := none, closeSeq := none,
           endReason := none }

/-- A slot made FREE: extent kept, optional fields absent, lists and counts empty (R85, R86). -/
def Slot.freed (x : Slot) : Slot :=
  { x.withoutOptional with state := .free, prot := none, streamLen := 0, skips := [], shocks := 0 }

/-- A slot taken for a clip, its record set afresh (R91). -/
def Slot.taken (x : Slot) (clip : Word32) (now : Time) : Slot :=
  { x.withoutOptional with state := .filling, clip := some clip, startTime := some now, streamLen := 0,
                           skips := [], shocks := 0 }

/-- The slots of the table, numbered. -/
def ClipRecorder.numbered (c : ClipRecorder) : List (Nat × Slot) := (List.range 64).zip c.slots.toList

/-- Of two numbered slots the one with the lower close sequence, the first on a tie. -/
def olderSlot (a : Option (Nat × Slot)) (b : Nat × Slot) : Option (Nat × Slot) :=
  match a with
  | none => some b
  | some x => if optWord b.2.closeSeq < optWord x.2.closeSeq then some b else some x

/-- The slot to take, other than `exclude`: the first FREE one, or in LOOP the unprotected CLOSED one with the
lowest close sequence (R91). -/
def ClipRecorder.candidate (c : ClipRecorder) (mode : ClipMode) (exclude : Option Nat) : Option Nat :=
  let others := c.numbered.filter (fun x => decide (some x.1 ≠ exclude))
  match others.find? (fun x => decide (x.2.state = .free)) with
  | some x => some x.1
  | none =>
    match mode with
    | .linear => none
    | .loop =>
      ((others.filter (fun x => decide (x.2.state = .closed) && x.2.prot.isNone)).foldl olderSlot none).map Prod.fst

/-- A slot marked UNUSABLE in a search (R91). -/
def State.markUnusable (s : State) (i : Nat) : State :=
  s.setSlot i { (s.clip.slot i).withoutOptional with state := .unusable }

/-- The search for a slot: candidates without usable blocks become UNUSABLE and the search goes on (R91). The first
argument bounds the candidates tried; 64 slots need no more than 65. -/
def State.seekSlot (mode : ClipMode) (exclude : Option Nat) : Nat → State → State × Option Nat
  | 0, s => (s, none)
  | n + 1, s =>
    match s.clip.candidate mode exclude with
    | none => (s, none)
    | some i =>
      if (s.contributions i).sum = 0 then State.seekSlot mode exclude n (s.markUnusable i) else (s, some i)

/-- The segment being filled right after its slot is taken. -/
def State.newFilling (s : State) (i : Nat) : Filling :=
  { slot := i, placement := 0, front := 0, pending := none, anyPlaced := false, limit := 0,
    contrib := s.contributions i, fillers := [], damagedAt := none }

/-- A slot found becomes FILLING (R91). -/
def State.takeSlot (s : State) (i : Nat) : State :=
  State.setFilling (s.setSlot i ((s.clip.slot i).taken s.clip.clipNumber s.now)) (s.newFilling i)

/-- The FILLING slot leaves FILLING at the clock value now with the next close sequence (R84). -/
def Slot.left (x : Slot) (state : SlotState) (now : Time) (closeSeq : Word32) : Slot :=
  { x with state := state, endTime := some now, closeSeq := some closeSeq }

/-- The FILLING segment closes with an end reason (R95). -/
def State.closeSegment (s : State) (reason : EndReason) : State :=
  match s.clip.filling with
  | none => s
  | some f =>
    let seq := s.clip.closeCounter + 1
    let x := (s.clip.slot f.slot).left .closed s.now seq
    let len := if reason = .damaged then f.damagedAt.getD f.placement else f.placement
    let c := s.clip.setSlot f.slot { x with streamLen := len, endReason := some reason }
    State.raise { s with clip := { c with closeCounter := seq, filling := none } } (.segmentClosed f.slot reason seq)

/-! ### The end of a clip -/

/-- The motion chunk accumulator closes, emptied unsent (R53). -/
def FrameBuilder.closeAcc (f : FrameBuilder) : FrameBuilder := { f with accOpen := false, acc := [] }

/-- The clip recorder becomes IDLE with CLIP_ENDED. -/
def State.endClip (s : State) (reason : ClipEnd) : State :=
  State.raise { s with clip := { s.clip with state := .idle, filling := none } }
    (.clipEnded s.clip.clipNumber reason)

/-- A clip ends with chunks still queued: every descriptor is discarded and the accumulator closes (R94, R101). -/
def State.abandonClip (s : State) (reason : ClipEnd) : State :=
  State.endClip { s with buffer := s.buffer.discardAll, frame := s.frame.closeAcc } reason

/-- The FILLING slot becomes INTERRUPTED with a close sequence and an end time (R101, R102). -/
def State.interruptSlot (s : State) : State :=
  match s.clip.filling with
  | none => s
  | some f =>
    let seq := s.clip.closeCounter + 1
    let c := s.clip.setSlot f.slot ((s.clip.slot f.slot).left .interrupted s.now seq)
    { s with clip := { c with closeCounter := seq, filling := none } }

/-- The card is lost: an open clip ends with its segment INTERRUPTED (R101). -/
def State.clipLost (s : State) : State :=
  if s.clip.state.isOpen then s.interruptSlot.abandonClip .cardAbsent else s

/-! ### Rollover (R94) -/

/-- A rollover begins: the close is pending for its cause, the stream is ended and a flush is requested with the
last chunk placed as its mark (R94). -/
def State.beginRollover (s : State) (f : Filling) (cause : CloseCause) : State :=
  let s' := s.setFilling { f.endStream with pending := some cause }
  s'.requestFlush s'.buffer.lastPlaced

/-- The end reason of a rollover's close, given whether a slot was found (R94). -/
def CloseCause.reason : CloseCause → Bool → EndReason
  | .damaged, _ => .damaged
  | _, false => .ringFull
  | .rollover, true => .rollover
  | .forced, true => .forced

/-- The clip recorder's state in the segment that follows (R94). -/
def ClipState.resumed : ClipState → ClipState
  | .closing => .closing
  | _ => .recording

/-- The close of a drained segment: a slot is sought, the segment closes, and the clip goes on in the slot found
or ends RING_FULL (R94). -/
def State.finishRollover (s : State) (f : Filling) (cause : CloseCause) : State :=
  match s.seekSlot s.clip.mode (some f.slot) 65 with
  | (s1, some i) =>
    (((s1.closeSegment (cause.reason true)).takeSlot i).setClipState s1.clip.state.resumed)
  | (s1, none) => (s1.closeSegment (cause.reason false)).abandonClip .ringFull

/-- Whether a segment draining before its close has drained: a close is pending, no rollover is ruled out, and the
last chunk placed in it has left the queue (R94). -/
def State.drained (s : State) : Option (Filling × CloseCause) :=
  match s.clip.filling with
  | none => none
  | some f =>
    match f.pending with
    | none => none
    | some cause =>
      if s.clip.state = .idle || s.clip.state = .emergency || s.buffer.queue.any (fun c => c.place.isSome) then none
      else some (f, cause)

/-! ### Placement (R92, R93) -/

/-- A chunk placed at the placement position, with the filler that follows a flush mark (R77, R93 step 5). -/
def State.placeChunk (s : State) (f : Filling) (c : Chunk) : State :=
  let placedAt := fun (d : Chunk) =>
    if d.seq = c.seq then { d with state := .placed, place := some f.placement, acked := 0 } else d
  let f1 := { f with placement := f.placement + c.streamBytes, anyPlaced := true }
  let f2 := if s.buffer.flush = some c.seq then f1.endStream else f1
  let x := s.clip.slot f.slot
  let s1 := if f.anyPlaced then s else s.setSlot f.slot { x with firstSeq := some c.seq }
  State.setFilling { s1 with buffer := s1.buffer.mapQueue placedAt } f2

/-- The segment no longer holds any standing placement. -/
def State.noneStanding (s : State) (f : Filling) : State :=
  State.setFilling (s.setSlot f.slot { s.clip.slot f.slot with firstSeq := none }) { f with anyPlaced := false }

/-- The stream ended at position `pos` after placements are withdrawn or discarded: the fillers from there on go, the
rest of a block not yet acknowledged is filled, and at position 0 no placement stands (R97, R100 step 4). -/
def State.endStreamAt (s : State) (f : Filling) (pos : Nat) : State :=
  let f1 := { f with placement := pos, fillers := f.fillers.filter (fun st => decide (st < pos)) }
  let f2 := if f.front ≤ pos / 512 then f1.endStream else f1
  if pos = 0 then s.noneStanding f2 else s.setFilling f2

/-- The stream end of the last chunk whose placement stands: the last one in the queue, or else the newest chunk
wholly on the card, whose end is the recorded stream length; 0 when none stands (R96, R100). -/
def State.standingEnd (s : State) (f : Filling) : Nat :=
  match (s.buffer.queue.filter (fun c => c.place.isSome)).getLast? with
  | some c => c.streamEnd
  | none => (s.clip.slot f.slot).streamLen

/-- A descriptor and all after it discarded in EMERGENCY, and the stream ended (R100 step 4). A DAMAGED close that stands
then keeps the stream length that R97 gave it, even where chunks before F have been discarded: DESIGN CHOICE
(notes/assumptions/35.md). -/
def State.emergencyDiscard (s : State) (f : Filling) (seq : Word32) : State :=
  let s1 := { s with buffer := s.buffer.discardFrom seq }
  s1.endStreamAt f (s1.standingEnd f)

/-- A chunk that does not fit in a segment with no chunk placed: the slot becomes UNUSABLE and the clip goes on in
the slot found, or ends RING_FULL with no segment closed (R93 step 4). The search leaves no slot out, so right behind a
rollover LOOP may take the slot that the rollover has just closed: DESIGN CHOICE (notes/assumptions/38.md). -/
def State.unusableSegment (s : State) (f : Filling) (c : Chunk) : State :=
  let x := { (s.clip.slot f.slot).withoutOptional with state := .unusable, prot := none }
  let s1 := (s.setSlot f.slot x).raise (.rolloverForced f.slot c.seq)
  match s1.seekSlot s1.clip.mode none 65 with
  | (s2, some i) => (s2.takeSlot i).setClipState s2.clip.state.resumed
  | (s2, none) => s2.abandonClip .ringFull

/-- RECORDING with the placement position at or past the threshold becomes ROLLOVER_WAIT (R93 step 1). -/
def State.awaitKeyframe (s : State) (f : Filling) : State :=
  if s.clip.state = .recording ∧ f.threshold s.clip.cfg.allowance ≤ f.placement then s.setClipState .rolloverWait
  else s

/-- The decision at the placement of the next chunk (R93, and R100 in EMERGENCY). -/
def State.judgePlacement (s : State) (f : Filling) (c : Chunk) : State :=
  let s1 := s.awaitKeyframe f
  let fits := decide (f.placement + c.streamBytes ≤ f.capacity)
  if s1.clip.state = .emergency then
    if fits && decide (f.placement + c.streamBytes ≤ f.limit) then s1.placeChunk f c
    else s1.emergencyDiscard f c.seq
  else if s1.clip.state = .rolloverWait ∧ c.kind = .video ∧ c.key ∧ f.anyPlaced then s1.beginRollover f .rollover
  else if fits then s1.placeChunk f c
  else if f.anyPlaced then (s1.raise (.rolloverForced f.slot c.seq)).beginRollover f .forced
  else s1.unusableSegment f c

/-- The chunk to place next, when one can be placed: the first descriptor with no standing placement, unless it is
RECEIVING, with a clip open, a segment FILLING and no close pending (R92). -/
def State.nextPlacement (s : State) : Option (Filling × Chunk) :=
  match s.clip.filling, s.buffer.queue.find? (fun c => c.place.isNone) with
  | some f, some c =>
    if s.clip.state.isOpen && f.pending.isNone && decide (c.state ≠ .receiving) then some (f, c) else none
  | _, _ => none

/-- Placements and rollovers taken one after another, as many as the state of the queue allows (R92, R94). The
first argument bounds them. -/
def State.advanceClip : Nat → State → State
  | 0, s => s
  | n + 1, s =>
    match s.drained with
    | some (f, cause) => State.advanceClip n (s.finishRollover f cause)
    | none =>
      match s.nextPlacement with
      | some (f, c) => State.advanceClip n (s.judgePlacement f c)
      | none => s

/-- The end of a close whose write queue has become empty: CLOSING ends STOP (R99), EMERGENCY ends EMERGENCY, the
segment DAMAGED if a DAMAGED close was pending (R100). -/
def State.finishClose (s : State) : State :=
  if s.buffer.queue.isEmpty then
    match s.clip.state with
    | .closing => (s.closeSegment .stop).endClip .stop
    | .emergency =>
      let damaged := s.clip.filling.any (fun f => decide (f.pending = some .damaged))
      (s.closeSegment (if damaged then .damaged else .emergency)).endClip .emergency
    | _ => s
  else s

/-- The bound on the placements and rollovers of one event: each chunk is judged at most twice, each slot found
unusable at most once. -/
def State.clipFuel (s : State) : Nat := 2 * s.buffer.queue.length + 200

/-- The clip recorder's standing work: placement, rollover and close, until none is left to do. -/
def State.settleClip (s : State) : State := (State.advanceClip s.clipFuel s).finishClose

/-! ### Acknowledgements (R70, R96) -/

/-- The bytes of a chunk placed at o that lie in stream block n. -/
def bytesInBlock (o len n : Nat) : Nat := min (o + len) (512 * (n + 1)) - max o (512 * n)

/-- Stream block n credited to a chunk (R70). -/
def Chunk.credit (n : Nat) (c : Chunk) : Chunk :=
  match c.place with
  | none => c
  | some o => { c with acked := c.acked + bytesInBlock o c.streamBytes n }

/-- Stream block n of slot `slot` acknowledged: the front advances, the block's bytes are credited, the chunks that
became WRITTEN leave, and the segment's stream length and last chunk sequence follow the last of them (R70, R96). -/
def State.ackBlock (s : State) (slot n : Nat) : State :=
  match s.clip.filling with
  | none => s
  | some f =>
    if f.slot = slot then
      let f1 := { f with front := if n = f.front then n + 1 else f.front }
      let b := s.buffer.mapQueue (Chunk.credit n)
      let x := s.clip.slot f.slot
      let x1 := match b.writtenHead.getLast? with
        | none => x
        | some c => { x with streamLen := c.streamEnd, lastSeq := some c.seq }
      State.setFilling { (s.setSlot f.slot x1) with buffer := b.popWritten } f1
    else s

/-! ### Skips (R97) -/

/-- Placements withdrawn from the chunk numbered `i` in the queue on. -/
def withdrawFrom (q : List Chunk) (i : Nat) : List Chunk :=
  q.take i ++ (q.drop i).map (fun c => { c with place := none })

/-- The segment damaged at F: the placements of F and of every chunk after it are withdrawn, the stream is ended at
F's offset, a DAMAGED close is pending and a flush is requested with the last chunk whose placement stands; in
EMERGENCY the withdrawn chunks and all after them are discarded. The flush needs no filler of its own: the stream has
just been ended (R97, R100). -/
def State.damageAt (s : State) (f : Filling) (c : Chunk) : State :=
  let pos := c.place.getD 0
  let b := if s.clip.state = .emergency then s.buffer.discardFrom c.seq
    else { s.buffer with queue := withdrawFrom s.buffer.queue (s.buffer.indexOf c.seq) }
  let s1 := State.endStreamAt { s with buffer := b } { f with pending := some .damaged, damagedAt := some pos } pos
  s1.markFlush s1.buffer.lastPlaced

/-- The first placed chunk whose stream end exceeds a byte position. -/
def ChunkBuffer.firstPast (b : ChunkBuffer) (limit : Nat) : Option Chunk :=
  b.queue.find? (fun c => c.place.isSome && decide (limit < c.streamEnd))

/-- A skip report for the FILLING segment: granule g, offset o of the failed block in it, and whether g joined the
bad-granule list (R97). An unrecorded skip with no placed chunk that ends past the failed block changes nothing: R97 then
has no F, DESIGN CHOICE (notes/assumptions/39.md). -/
def State.skipGranule (s : State) (slot g o : Nat) (joined : Bool) : State :=
  match s.clip.filling with
  | none => s
  | some f =>
    if f.slot = slot then
      let x := s.clip.slot slot
      if joined && decide (x.skips.length < 4) then
        let f1 := { f with contrib := f.contrib.set (g - x.first) o }
        let s1 := State.setFilling (s.setSlot slot { x with skips := x.skips ++ [(g, o)] }) f1
        match s1.buffer.firstPast f1.capacity with
        | none => s1
        | some c => s1.damageAt f1 c
      else
        match s.buffer.firstPast (512 * f.front) with
        | none => s
        | some c => s.damageAt f c
    else s

/-! ### Shock protection (R98) -/

/-- A protection asked for with reason SHOCK: granted within the limit, or refused (R98). -/
def State.protectShock (s : State) (i : Nat) (t : Time) : State :=
  let x := s.clip.slot i
  if x.prot.isSome then s
  else if s.clip.protectedCount < s.clip.cfg.protectLimit then s.setSlot i { x with prot := some .shock }
  else State.raise { s with clip := { s.clip with protectRefused := s.clip.protectRefused + 1 } } (.protectRefused i t)

/-- Of two numbered slots the one with the higher close sequence. -/
def newerSlot (a : Option (Nat × Slot)) (b : Nat × Slot) : Option (Nat × Slot) :=
  match a with
  | none => some b
  | some x => if optWord x.2.closeSeq < optWord b.2.closeSeq then some b else some x

/-- The CLOSED slot with the highest close sequence (R98). -/
def ClipRecorder.previous (c : ClipRecorder) : Option (Nat × Slot) :=
  (c.numbered.filter (fun x => decide (x.2.state = .closed))).foldl newerSlot none

/-- Whether a segment that ended at `ended` lies within the pre-event window of a shock at t: the difference is at
most the window, or invalid because the segment ended after t (R98). -/
def withinPreEvent (t ended : Time) (seconds : Nat) : Bool :=
  match validDiff t ended with
  | some d => decide (d ≤ 1000000 * seconds)
  | none => true

/-- The FILLING segment's shock count one higher, stopping at 65535, and its protection asked for (R98 step 1). -/
def State.shockFilling (s : State) (t : Time) : State :=
  match s.clip.filling with
  | none => s
  | some f =>
    let x := s.clip.slot f.slot
    (s.setSlot f.slot { x with shocks := min (x.shocks + 1) 65535 }).protectShock f.slot t

/-- The protection of the previous segment asked for (R98 step 2). -/
def State.shockPrevious (s : State) (t : Time) : State :=
  match s.clip.previous with
  | none => s
  | some x => if withinPreEvent t (x.2.endTime.getD 0) s.clip.cfg.preEventS then s.protectShock x.1 t else s

/-- The clip recorder's part of a shock event with time t (R98). -/
def State.shockProtect (s : State) (t : Time) : State := (s.shockFilling t).shockPrevious t

end Sys2Proof.Machine
end

