-- ==== Sys2Proof/Machine/Card.lean ====
section
/-! DEFINITION. The card controller (Chapter 7): the operations on the card bus, identification, runs, failures and
recovery, the error log, CLAIM, sleep and removal; and the card's side of the burst grant (R106, R149). -/
namespace Sys2Proof.Machine

/-! ### The card bus (R103) -/

/-- The timeout of an operation, in µs (R103). -/
def CardOp.timeoutUs : CardOp → Nat
  | .wake => 5000
  | .busy _ => 250000
  | .identify | .status | .sleep | .openRun .. | .block .. | .closeRun => 50000

/-- An operation begun on the card bus at the clock value now. -/
def State.send (s : State) (op : CardOp) : State :=
  { s with card := { s.card with bus := some { op := op, deadline := later s.now op.timeoutUs } } }

/-- The card controller's state replaced. -/
def State.setCardState (s : State) (x : CardState) : State := { s with card := { s.card with state := x } }

/-- Nothing in flight on the card bus. -/
def State.clearBus (s : State) : State := { s with card := { s.card with bus := none } }

/-- The operation whose answer, arriving now, counts as given: in flight, its deadline not past (R103). -/
def State.awaited (s : State) : Option CardOp :=
  match s.card.bus with
  | none => none
  | some c => if atOrAfter c.deadline s.now then some c.op else none

/-- The operation in flight when its deadline has been reached. -/
def State.timedOut (s : State) : Option CardOp :=
  match s.card.bus with
  | none => none
  | some c => if atOrAfter s.now c.deadline then some c.op else none

/-! ### The burst grant (R106, R149) -/

/-- The grant item replaced (R149). -/
def State.setGrant (s : State) (g : Grant) : State := { s with budget := { s.budget with grant := g } }

/-- Whether run due stands in the write queue (R74). -/
def State.runDue (s : State) : Bool := s.buffer.runDue s.clip.cfg.batchKiB

/-- Whether every condition of a grant request holds: the card READY or SLEEP with nothing in flight, run due, no
shock hold, a segment FILLING with a writable block (R106). -/
def State.wantsGrant (s : State) : Bool :=
  (decide (s.card.state = .ready) || decide (s.card.state = .sleep)) && s.card.bus.isNone && s.runDue &&
  s.card.shockHold.isNone && s.clip.filling.any (fun f => decide (1 ≤ f.writable))

/-- The request brought up to date: asked for when the last condition comes to hold, withdrawn when one falls
(R106, R149). -/
def State.syncGrant (s : State) : State :=
  match s.budget.grant with
  | .none => if s.wantsGrant then s.setGrant .pending else s
  | .pending => if s.wantsGrant then s else s.setGrant .none
  | .held => s

/-! ### The error log (R116, R117) -/

/-- An entry joins the log at the tail, the oldest dropped from a full one (R116). -/
def CardController.logAdd (c : CardController) (kind : LogKind) (addr : Nat) (slot : Option Nat) (attempts : Nat)
    (now : Time) : CardController :=
  let e : LogEntry := { seq := c.logSeq + 1, kind := kind, addr := addr, slot := slot, attempts := attempts, time := now }
  if c.log.length < 32 then { c with logSeq := c.logSeq + 1, log := c.log ++ [e] }
  else { c with logSeq := c.logSeq + 1, log := c.log.drop 1 ++ [e], overflow := c.overflow + 1 }

/-- An entry whose kind is not CORRECTED: made, with CARD_ERROR (R116). -/
def State.logError (s : State) (kind : LogKind) (addr : Nat) (slot : Option Nat) (attempts : Nat) : State :=
  State.raise { s with card := s.card.logAdd kind addr slot attempts s.now } (.cardError kind (s.card.logSeq + 1))

/-- The granule of a card address in the clip area (R82). -/
def ClipCfg.granuleOf (c : ClipCfg) (addr : Nat) : Nat := (addr - c.areaBase) / c.granuleBlocks

/-- The block offset of a card address in its granule (R82). -/
def ClipCfg.offsetOf (c : ClipCfg) (addr : Nat) : Nat := (addr - c.areaBase) % c.granuleBlocks

/-- The slot that a log entry about a block of `slot` gives: the slot itself while it is the FILLING one, and absent
otherwise (R116). -/
def State.loggedSlot (s : State) (slot : Nat) : Option Nat :=
  if s.clip.filling.map Filling.slot = some slot then some slot else none

/-- A correctable event at a block taken at its `attempts`-th attempt (R117). -/
def State.correctable (s : State) (addr slot attempts : Nat) : State :=
  let g := s.clip.cfg.granuleOf addr
  let c : CardController := { s.card with corrected := s.card.corrected + 1 }
  if c.suppressed.contains g || decide (64 ≤ c.suppressed.length) then { s with card := c }
  else
    let c' := c.logAdd .corrected addr (s.loggedSlot slot) attempts s.now
    { s with card := { c' with suppressed := c'.suppressed ++ [g] } }

/-! ### Sleep, and leaving RUN (R109, R121, R123) -/

/-- SLEEP sent to a READY card (R121, R123). -/
def State.sendSleep (s : State) : State := (s.setCardState .ready).send .sleep

/-- Whether a run's end puts the card to sleep (R121). -/
def State.sleepAllowed (s : State) : Bool :=
  s.clip.cfg.sleepEnable && s.buffer.flush.isNone && !s.buffer.batchDue s.clip.cfg.batchKiB && !s.runDue

/-- The run ends: the grant released, the card out of RUN, to sleep if R121 allows and READY otherwise (R109). -/
def State.leaveRun (s : State) : State :=
  let s1 := State.clearBus (State.setGrant { s with card := { s.card with run := none } } .none)
  if s1.sleepAllowed then s1.sendSleep else s1.setCardState .ready

/-! ### Losing the card, FAULT (R101, R115) -/

/-- What the controller was doing abandoned: nothing in flight, no run, no identification (R113, R118, R122). -/
def CardController.abandon (c : CardController) : CardController := { c with bus := none, run := none, ident := none }

/-- The work abandoned and any grant released or request withdrawn (R113, R118, R122, R149). -/
def State.abandonCard (s : State) : State := State.setGrant { s with card := s.card.abandon } .none

/-- FAULT entered: any grant released, the fault reported to the clip recorder (R115). -/
def State.enterFault (s : State) : State := (s.abandonCard.setCardState .fault).clipLost

/-! ### Identification (R105, R114) -/

/-- INIT begun, by IDENTIFY or by WAKE to a card the part left asleep (R105). -/
def State.beginInit (s : State) (origin : IdentOrigin) (asleep : Bool) : State :=
  State.send
    { s with card := { s.card.abandon with
        state := .init, ident := some { origin := origin, attempt := 1, capacity := none } } }
    (if asleep then .wake else .identify)

/-- RECOVER begun (R113, R114). -/
def State.beginRecover (s : State) : State :=
  State.send
    { s with card := { s.card.abandon with
        state := .recover, ident := some { origin := .recovery, attempt := 1, capacity := none } } }
    .identify

/-- A try fails: the next one begins with IDENTIFY, and the third leaves for FAULT with an INIT_FAILED entry
(R105, R114). -/
def State.tryFails (s : State) (i : Identification) : State :=
  if 3 ≤ i.attempt then s.enterFault.logError .initFailed 0 none 3
  else
    State.send { s with card := { s.card with ident := some { i with attempt := i.attempt + 1, capacity := none } } }
      .identify

/-- The card becomes READY, and goes straight to sleep in PARK (R105, R123). -/
def State.becomeReady (s : State) : State :=
  let s1 := (State.clearBus { s with card := { s.card with ident := none } }).setCardState .ready
  if s1.link.parked then s1.sendSleep else s1

/-- The card controller once an INIT has succeeded with `cap`: capacity stored, recovery count cleared, and after an
insertion the bad-granule list and the suppression set emptied (R105). -/
def CardController.identified (c : CardController) (origin : IdentOrigin) (cap : Word32) : CardController :=
  let c1 := { c with capacity := cap, recovery := 0 }
  if origin = .insertion then { c1 with badList := [], suppressed := [] } else c1

/-- A try of INIT succeeds; after the release of CLAIM CARD_RETURNED is raised (R105). -/
def State.initSucceeds (s : State) (i : Identification) (cap : Word32) : State :=
  (State.becomeReady { s with card := s.card.identified i.origin cap }).raiseIf
    (decide (i.origin = .claimRelease)) (.cardReturned cap)

/-- The judgement of a try at STATUS's answer: in RECOVER the capacity must be the stored one (R105, R114). -/
def State.judgeTry (s : State) (ready : Bool) : State :=
  match s.card.ident with
  | none => s
  | some i =>
    match ready, i.capacity with
    | true, some cap =>
      if i.origin = .recovery then
        if cap = s.card.capacity then s.becomeReady else s.tryFails i
      else s.initSucceeds i cap
    | _, _ => s.tryFails i

/-! ### Runs (R107–R109) -/

/-- The run's length, fixed when OPEN_RUN is about to be sent (R107). -/
def State.runLength (s : State) (f : Filling) : Nat :=
  let toEnd := ((locate f.contrib f.front).map (fun r => r.2.2)).getD 0
  min (min s.buffer.wholeBlocks f.writable) (min toEnd 2048)

/-- The run in flight replaced. -/
def State.setRun (s : State) (r : Run) : State := { s with card := { s.card with run := some r } }

/-- A run opened at the acknowledged front; with no block to write it ends at once (R107). -/
def State.openRun (s : State) : State :=
  match s.clip.filling with
  | none => s.leaveRun
  | some f =>
    match s.blockAddress f.front, decide (1 ≤ s.runLength f) with
    | some addr, true =>
      State.send
        (s.setRun { slot := f.slot, first := f.front, addr := addr, count := s.runLength f, acked := 0, attempts := 0,
                    after := .leave, awaitHold := false })
        (.openRun addr (s.runLength f))
    | _, _ => s.leaveRun

/-! ### Entering RUN (R106, R107, R150) -/

/-- Whether a grant given waits to be entered on: held, with the card READY or SLEEP and its bus idle (R106, R150). -/
def State.runGranted (s : State) : Bool :=
  decide (s.budget.grant = .held) && (decide (s.card.state = .ready) || decide (s.card.state = .sleep)) &&
  s.card.bus.isNone

/-- RUN entered: a sleeping card is sent WAKE first, another OPEN_RUN (R107). -/
def State.enterRunState (s : State) : State :=
  let s1 := s.setCardState .run
  if s.card.state = .sleep then s1.send .wake else s1.openRun

/-- RUN entered before an event that ends it where the grant has been given and ENTER_RUN has not come yet: such an event
acts on a run (R106, R150, notes/assumptions/36.md). -/
def State.enterGranted (s : State) : State := if s.runGranted then s.enterRunState else s

/-- CLOSE_RUN sent, with what follows its acknowledgement (R109, R110). -/
def State.closeRun (s : State) (r : Run) (after : AfterClose) : State := (s.setRun { r with after := after }).send .closeRun

/-- The card address of the run's current block, the first not acknowledged. -/
def Run.current (r : Run) : Nat := r.addr + r.acked

/-- Whether the run's current block may be sent: below the writable end of the segment the run writes, in a granule
of its extent that the part may write and that is not on the bad-granule list (R108). -/
def State.blockAllowed (s : State) (r : Run) : Bool :=
  let g := s.clip.cfg.granuleOf r.current
  s.clip.filling.any (fun f =>
    let x := s.clip.slot f.slot
    decide (f.slot = r.slot) && decide (r.first + r.acked < f.placement / 512) && s.granuleWritable g &&
    !s.card.isBad g && decide (x.first ≤ g) && decide (g < x.first + x.count))

/-- The next block of the run sent, or the run ended: at its length, or early where R108 stops it (R108, R109). -/
def State.nextBlock (s : State) (r : Run) : State :=
  match s.clip.filling with
  | none => s.closeRun r .leave
  | some f =>
    if r.acked < r.count ∧ s.blockAllowed r then
      (s.setRun r).send (.block r.current (s.blockBytes f (r.first + r.acked)))
    else s.closeRun r .leave

/-- A failed attempt at the current block: a retry through CLOSE_RUN, or at the third the block's end (R110). -/
def State.failedAttempt (s : State) (r : Run) : State :=
  let r' := { r with attempts := r.attempts + 1 }
  s.closeRun r' (if 3 ≤ r.attempts + 1 then .giveUp else .retry)

/-- A retry's OPEN_RUN at the failed block, for the blocks not yet acknowledged; while a shock hold stands the
retry waits (R110, R120). -/
def State.retryRun (s : State) (r : Run) : State :=
  if s.card.shockHold.isSome then (s.setRun { r with awaitHold := true }).clearBus
  else (s.setRun { r with awaitHold := false }).send (.openRun r.current (r.count - r.acked))

/-- A granule that failed for good joins the bad-granule list, unless the list is full (R111). The slot of its entry is
that of the segment the run writes, even where that segment has left FILLING meanwhile: DESIGN CHOICE, R112 names the
segment being filled (notes/assumptions/30.md). -/
def CardController.joinBad (c : CardController) (g addr slot : Nat) (now : Time) : CardController :=
  if c.isBad g || decide (32 ≤ c.badList.length) then c
  else { c with badList := c.badList ++ [{ granule := g, addr := addr, slot := slot, time := now }] }

/-- Steps 1 to 3 of R111: the granule joins the list or not, BLOCK_FAILED is logged, the skip is reported. -/
def State.giveUpBlock (s : State) (r : Run) : State :=
  let g := s.clip.cfg.granuleOf r.current
  let s1 := { s with card := s.card.joinBad g r.current r.slot s.now }
  (s1.logError .blockFailed r.current (s.loggedSlot r.slot) 3).skipGranule r.slot g (s.clip.cfg.offsetOf r.current)
    (s1.card.isBad g)

/-- A block's end as the clip recorder takes it: the skip, and the standing work it brings about, such as the close of a
segment damaged with nothing left to write (R97, R111). -/
def State.skipBlock (s : State) (r : Run) : State := (s.giveUpBlock r).settleClip

/-- HOLD and the latency deadline brought up to date (R68, R75). -/
def State.syncBuffer (s : State) : State :=
  { s with buffer := s.buffer.syncHold.syncLatency s.now s.clip.cfg.latencyMs }

/-- CLOSE_RUN acknowledged (R109–R111). After a block's end the grant is released before the clip recorder acts on
the skip, and the card leaves RUN once it has. -/
def State.runClosed (s : State) (r : Run) : State :=
  match r.after with
  | .leave => s.leaveRun
  | .retry => s.retryRun r
  | .giveUp => ((s.setGrant .none).skipBlock r).syncBuffer.leaveRun

/-- The run's current block acknowledged: counts cleared, a correctable event noted, the block reported to the clip
recorder, whose standing work follows, and the next block sent (R108, R96, R117). -/
def State.blockDone (s : State) (r : Run) : State :=
  let s1 := if r.attempts = 0 then s else s.correctable r.current r.slot (r.attempts + 1)
  let s2 := { s1 with card := { s1.card with recovery := 0 } }
  (s2.ackBlock r.slot (r.first + r.acked)).settleClip.nextBlock { r with acked := r.acked + 1, attempts := 0 }

/-! ### Timeouts (R113) -/

/-- Whether the run has ended, at its length or early, and only its CLOSE_RUN is outstanding: no block of it is in
transfer or has failed (R109). -/
def State.runEnded (s : State) (r : Run) : Bool :=
  decide (r.count ≤ r.acked) ||
  (decide (r.after = .leave) && s.card.bus.any (fun c => decide (c.op = .closeRun)))

/-- The block address and slot a timeout's or a removal's log entry gives while a run is open: those of the current
block, or a free address where the run has ended and R116 names no block (notes/assumptions/3.md). -/
def State.withRunBlock (s : State) (k : Nat → Option Nat → State → State) : State :=
  match s.card.run with
  | some r =>
    if s.runEnded r then
      k (Config.freeWord s.freeCount).toNat (s.loggedSlot r.slot) { s with freeCount := s.freeCount + 1 }
    else k r.current (s.loggedSlot r.slot) s
  | none => k 0 none s

/-- The recovery count one higher: FAULT at 3, RECOVER below (R113). -/
def State.countTimeout (s : State) : State :=
  let s1 := { s with card := { s.card with recovery := s.card.recovery + 1 } }
  if 3 ≤ s1.card.recovery then s1.enterFault else s1.beginRecover

/-- A timeout: the work abandoned, the grant released, the entry logged, the recovery count raised (R113). -/
def State.timeout (s : State) (kind : LogKind) (addr : Nat) (slot : Option Nat) : State :=
  (s.abandonCard.logError kind addr slot 1).countTimeout

/-- A timeout of a command that belongs to the run: its entry names the run's block (R113, R116). -/
def State.runTimeout (s : State) (kind : LogKind) : State := s.withRunBlock (fun addr slot s' => s'.timeout kind addr slot)

/-- A CLOSE_RUN unanswered: a timeout, and where a block had failed for good steps 1 to 3 of R111 are still taken.
Their order is open (R111, notes/assumptions/3.md). -/
def State.closeTimeout (s : State) : State :=
  match s.card.run with
  | none => s.runTimeout .noResponse
  | some r =>
    if r.after = .giveUp then
      s.chooseFree (fun s' => (s'.skipBlock r).runTimeout .noResponse)
        (fun s' => (s'.runTimeout .noResponse).skipBlock r)
    else s.runTimeout .noResponse

/-- A card command unanswered within its timeout, by the operation in flight (R105, R113, R114). -/
def State.commandTimeout (s : State) (op : CardOp) : State :=
  match op with
  | .identify | .status =>
    match s.card.ident with
    | none => s
    | some i => s.clearBus.tryFails i
  | .wake =>
    match s.card.ident with
    | some i => s.clearBus.tryFails i
    | none => s.timeout .noResponse 0 none
  | .sleep => s.timeout .noResponse 0 none
  | .openRun .. | .block .. => s.runTimeout .noResponse
  | .closeRun => s.closeTimeout
  | .busy _ => s

/-! ### Presence and CLAIM (R104, R118, R119, R122) -/

/-- The settling time of a change of CDET: 100 ms for a card shown while absent, 1 ms for none shown while present;
a line that shows what the presence says has none (R104). -/
def settleDeadline (now : Time) (shown present : Bool) : Option Time :=
  if shown = present then none else some (later now (if shown then 100000 else 1000))

/-- Whether a removal loses something that is logged: a run, an INIT, a RECOVER or an open clip (R122). -/
def State.removalLogged (s : State) : Bool :=
  decide (s.card.state = .run) || decide (s.card.state = .init) || decide (s.card.state = .recover) ||
  s.clip.state.isOpen

/-- The CARD_REMOVED entry of a removal (R116, R122). -/
def State.logRemoval (s : State) : State :=
  if s.card.state = .run then s.withRunBlock (fun addr slot s' => s'.logError .cardRemoved addr slot 1)
  else s.logError .cardRemoved 0 none 1

/-- A removal's effects beyond the presence (R122). -/
def State.removeCard (s : State) : State :=
  let s1 := if s.removalLogged then s.logRemoval else s
  let s2 := s1.abandonCard
  let state := if s.card.state = .yielded then .yielded else .absent
  State.clipLost { s2 with card := { s2.card with state := state, capacity := 0, recovery := 0 } }

/-- The acknowledged front of the FILLING segment, or 0 when none is FILLING (R118). -/
def State.frontOrZero (s : State) : Nat := (s.clip.filling.map Filling.front).getD 0

/-- The card yielded to the host at a CLAIM (R118). -/
def State.yieldCard (s : State) : State :=
  let s1 := s.abandonCard
  State.raise
    { s1 with card := { s1.card with state := .yielded, leftAsleep := decide (s.card.state = .sleep) } }
    (.cardTaken s.card.state s.frontOrZero)

/-! ### Standing work after an event -/

/-- The standing work of the clip column brought up to date: placement and closes, HOLD, the latency deadline and
the grant request (R68, R75, R92, R94, R99, R100, R106). -/
def State.settle (s : State) : State := s.settleClip.syncBuffer.syncGrant

end Sys2Proof.Machine
end

