-- ==== Sys2Proof/Machine/Capture.lean ====
section
/-! DEFINITION. The capture channels, the cadence monitors and the band schedule (Chapter 1). -/
namespace Sys2Proof.Machine

/-- The IMU period of the sample rate, in µs (R4). -/
def MotionCfg.period (c : MotionCfg) : Nat := 1000000 / c.rate

/-- One channel's record and monitor. -/
def CaptureUnit.get (c : CaptureUnit) : Channel → Capture
  | .fs => c.fs
  | .dr => c.dr

/-- One channel's record and monitor replaced. -/
def CaptureUnit.set (c : CaptureUnit) : Channel → Capture → CaptureUnit
  | .fs, x => { c with fs := x }
  | .dr, x => { c with dr := x }

/-- One channel of the state replaced. -/
def State.setChannel (s : State) (ch : Channel) (x : Capture) : State := { s with capture := s.capture.set ch x }

/-- Taking an edge at `now` (R2). -/
def Capture.take (c : Capture) (now : Time) : Capture :=
  { c with prev := c.last, last := now, count := c.count + 1 }

/-- Whether an interval lies within ±25% of the nominal period (R6). -/
def inTolerance (interval period : Nat) : Bool :=
  decide (3 * period ≤ 4 * interval) && decide (4 * interval ≤ 5 * period)

/-- Whether the interval that ended at the last edge is valid and in tolerance (R6). -/
def Capture.steady (c : Capture) (period : Nat) : Bool :=
  match validDiff c.last c.prev with
  | some d => inTolerance d period
  | none => false

/-- The judgement of an edge just taken: the first of a session has no interval; in LOST a steady interval raises
the lock run, which locks at 3, and any other clears it; in LOCKED nothing changes (R6). -/
def Capture.judge (c : Capture) (period : Nat) : Capture :=
  if c.edgeSeen then
    match c.cadence with
    | .locked => c
    | .lost =>
      if c.steady period then
        if 3 ≤ c.lockRun + 1 then { c with cadence := .locked, lockRun := 0 }
        else { c with lockRun := c.lockRun + 1 }
      else { c with lockRun := 0 }
  else { c with edgeSeen := true }

/-- The loss deadline set again from the last edge: 4 nominal periods after it (R5, R6). -/
def Capture.rearm (c : Capture) (period : Nat) : Capture :=
  { c with deadline := some (later c.last (4 * period)) }

/-- The monitor at a MOTION_START (R7). -/
def Capture.startSession (c : Capture) (now : Time) (period : Nat) : Capture :=
  { c with lockRun := 0, edgeSeen := false, deadline := some (later now (4 * period)) }

/-- The monitor at a MOTION_STOP (R7). -/
def Capture.stopSession (c : Capture) : Capture := { c with deadline := none }

/-- The monitor at the expiry of its loss deadline (R5). -/
def Capture.expire (c : Capture) : Capture := { c with cadence := .lost, lockRun := 0, deadline := none }

/-- A channel's monitor changed to `x`, with the CADENCE notice of a change of state at clock value `t` (R8). -/
def State.judged (s : State) (ch : Channel) (x : Capture) (t : Time) : State :=
  (s.setChannel ch x).raiseIf (decide (x.cadence ≠ (s.capture.get ch).cadence)) (.cadence ch x.cadence t)

/-- A signed number of µs added to a ride clock value, modulo 2^40. -/
def shiftTime (t : Time) (us : Int) : Time := t + BitVec.ofInt 40 us

/-- The due time of band b (R10). -/
def bandDue (lens : Lens) (tfs : Time) (b : Nat) : Time :=
  shiftTime tfs (lens.latchOffset + (((2 * b + 1) * lens.readout / (2 * lens.bands) : Nat) : Int))

/-- The band compare list of a frame that starts at `tfs` (R10). -/
def buildBands (lens : Lens) (tfs : Time) : List BandDue :=
  (List.range lens.bands).map (fun b => ⟨b, bandDue lens tfs b⟩)

/-- Whether a due time is not after the frame start: their difference is 0 or invalid (R10). -/
def dueAtOnce (tfs : Time) (e : BandDue) : Bool := decide (e.due = tfs) || decide (2 ^ 39 ≤ (e.due - tfs).toNat)

end Sys2Proof.Machine
end

