-- ==== Sys2Proof/Machine/Motion.lean ====
section
/-! DEFINITION. The motion computer: bias interpolation, calibration and mapping (Chapter 2), the gap rule, the
integrators (Chapter 3) and the shock detector (Chapter 4). -/
namespace Sys2Proof.Machine

/-! ### One value for each axis -/

/-- A function applied on each axis. -/
def Tri.map {α β : Type} (f : α → β) (t : Tri α) : Tri β := ⟨f t.yaw, f t.pitch, f t.roll⟩

/-- Two values combined on each axis. -/
def Tri.zipWith {α β γ : Type} (f : α → β → γ) (t : Tri α) (u : Tri β) : Tri γ :=
  ⟨f t.yaw u.yaw, f t.pitch u.pitch, f t.roll u.roll⟩

/-- Whether the flag of any axis is set. -/
def Tri.or (t : Tri Bool) : Bool := t.yaw || t.pitch || t.roll

/-! ### Active and pending copies (R27) -/

/-- A table's newest contents: the pending copy if one is waiting, otherwise the active copy. -/
def Dual.newest {α : Type} (d : Dual α) : α := d.pending.getD d.active

/-- An accepted load stored: the pending copy while motion is active, the active copy while it is stopped. -/
def Dual.store {α : Type} (d : Dual α) (motionActive : Bool) (v : α) : Dual α :=
  if motionActive then { d with pending := some v } else { active := v, pending := none }

/-- A waiting pending copy made active. -/
def Dual.promote {α : Type} (d : Dual α) : Dual α := { active := d.newest, pending := none }

/-- A waiting pending copy dropped. -/
def Dual.dropPending {α : Type} (d : Dual α) : Dual α := { d with pending := none }

/-! ### Temperature, bias, calibration and mapping -/

/-- The bias of one axis from its nine points at temperature word T16 (R21, R23). -/
def biasAt (points : List Int) (t16 : Int) : Int :=
  let t := clampInt (-160) 1120 t16 + 160
  let i := (truncDiv t 160).toNat
  if i = 8 then points.getD 8 0
  else
    let f := t - 160 * (i : Int)
    points.getD i 0 + roundHalfAway ((points.getD (i + 1) 0 - points.getD i 0) * f) 160

/-- The nine points of sensor axis 0, 1 or 2 (R22). -/
def biasPoints (bias : List Int) (axis : Nat) : List Int := (bias.drop (9 * axis)).take 9

/-- The raw gyro value on sensor axis 0, 1 or 2. -/
def Sample.gyro (x : Sample) : Nat → Int
  | 0 => x.gx
  | 1 => x.gy
  | _ => x.gz

/-- The calibrated rate of a sensor axis: 16·raw − bias (R24). -/
def MotionComputer.calibrated (m : MotionComputer) (x : Sample) (axis : Nat) : Int :=
  16 * x.gyro axis - biasAt (biasPoints m.bias.active axis) x.temp

/-- Whether a raw gyro value is at the end of its range (R24). -/
def gyroSaturated (raw : Int) : Bool := decide (raw = 32767) || decide (raw = -32767) || decide (raw = -32768)

/-- The mapped rate of a camera axis from its source (R26). -/
def MotionComputer.mapped (m : MotionComputer) (x : Sample) (src : MountSource) : Int :=
  if src.negative then -(m.calibrated x src.axis) else m.calibrated x src.axis

/-- The mapped camera-axis rates of a sample (R26). -/
def MotionComputer.rates (m : MotionComputer) (x : Sample) : Tri Int := m.mount.active.map (m.mapped x)

/-- Whether any camera axis's source is saturated in the sample (R24, R26). -/
def MotionComputer.saturated (m : MotionComputer) (x : Sample) : Bool :=
  (m.mount.active.map (fun src => gyroSaturated (x.gyro src.axis))).or

/-! ### Gaps (R29) -/

/-- Whether a gap is detected at a sample stamped `stamp`, and the number m of fill steps (R29). -/
def GapState.measure (g : GapState) (stamp : Time) (period : Nat) : Bool × Nat :=
  match g.lastGood with
  | none => (false, 0)
  | some t =>
    match validDiff stamp t with
    | none => (true, 0)
    | some d => if 2 * d ≤ 3 * period then (false, 0) else (true, (2 * d + period) / (2 * period) - 1)

/-! ### Integrators (R34–R38, R41, R42, R46) -/

/-- The effective shift from the error left by the previous step (R35). -/
def effectiveShift (a : LensAxis) (errPrev : Int) : Nat :=
  if errPrev.natAbs ≤ a.margin / 2 then a.shift
  else if errPrev.natAbs ≤ 3 * a.margin / 4 then max (a.shift - 2) 1
  else max (a.shift - 4) 1

/-- The displacement of an error: round half away of C·K / 2^24, saturated to 16 bits (R38). -/
def displacement (c : Int) (gain : Nat) : Int := saturate16 (roundHalfAway (c * (gain : Int)) (2 ^ 24))

/-- The margin clamp of an error (R37). -/
def marginClamp (margin : Nat) (c : Int) : Int := clampInt (-(margin : Int)) (margin : Int) c

/-- Whether the clamp marks the axis MARGIN: it acted, or the margin is 0 (R37). -/
def marginMark (margin : Nat) (c : Int) : Bool := decide (margin = 0) || decide (marginClamp margin c ≠ c)

/-- Re-basing: P becomes P − A, then A becomes 0 (R41). -/
def Integrator.rebase (i : Integrator) : Integrator := { i with path := i.path - i.angle, angle := 0 }

/-- The width guard: an axis whose |A| has reached 2^46 is re-based (R46). -/
def Integrator.guardWidth (i : Integrator) : Integrator := if 2 ^ 46 ≤ i.angle.natAbs then i.rebase else i

/-- The error before the clamp of a step at rate g: P after the filter less A (R34–R37). -/
def Integrator.rawError (a : LensAxis) (i : Integrator) (g : Int) : Int :=
  i.path + floorShift (i.angle + g - i.path) (effectiveShift a i.errPrev) - (i.angle + g)

/-- One integrator step at rate g: add the rate, move the path, clamp (which leaves P at A + C), set the previous
error, form the displacement, guard the width (R34–R38, R46). -/
def Integrator.step (a : LensAxis) (i : Integrator) (g : Int) : Integrator :=
  let angle := i.angle + g
  let c := marginClamp a.margin (i.rawError a g)
  Integrator.guardWidth
    { angle := angle, path := angle + c, err := c, errPrev := c, disp := displacement c a.gain }

/-- Whether the step at rate g marks the axis MARGIN (R37). -/
def Integrator.stepMark (a : LensAxis) (i : Integrator) (g : Int) : Bool := marginMark a.margin (i.rawError a g)

/-- An axis brought into line with new parameters: the clamp on C, with P dragged to A + C where it acts, and the
displacement formed afresh (R42). -/
def Integrator.lineUp (a : LensAxis) (i : Integrator) : Integrator :=
  let c := marginClamp a.margin i.err
  if marginMark a.margin i.err then
    { i with path := i.angle + c, err := c, errPrev := c, disp := displacement c a.gain }
  else { i with disp := displacement c a.gain }

/-- The integrators with the MARGIN marks gathered so far. -/
structure Stepped where
  axes  : Tri Integrator
  marks : Tri Bool
  deriving DecidableEq, Repr

/-- One step on each of the three axes (R34–R38). -/
def Stepped.step (lens : Lens) (rates : Tri Int) (x : Stepped) : Stepped :=
  { axes := ⟨x.axes.yaw.step lens.axes.yaw rates.yaw, x.axes.pitch.step lens.axes.pitch rates.pitch,
      x.axes.roll.step lens.axes.roll rates.roll⟩
    marks := ⟨x.marks.yaw || x.axes.yaw.stepMark lens.axes.yaw rates.yaw,
      x.marks.pitch || x.axes.pitch.stepMark lens.axes.pitch rates.pitch,
      x.marks.roll || x.axes.roll.stepMark lens.axes.roll rates.roll⟩ }

/-- n steps at the same rates. -/
def Stepped.steps (lens : Lens) (rates : Tri Int) : Nat → Stepped → Stepped
  | 0, x => x
  | n + 1, x => Stepped.steps lens rates n (x.step lens rates)

/-- The fill steps, the first 8 at the held rates and the rest at 0, and then the sample's own step (R30). -/
def Stepped.sample (lens : Lens) (held own : Tri Int) (m : Nat) (x : Stepped) : Stepped :=
  ((x.steps lens held (min m 8)).steps lens ⟨0, 0, 0⟩ (m - 8)).step lens own

/-! ### The shock detector (R57, R58) -/

/-- The squared magnitude of a sample's acceleration (R57). -/
def Sample.m2 (x : Sample) : Int := x.ax * x.ax + x.ay * x.ay + x.az * x.az

/-- Whether the sample is high: m2 is at least T² (R57). -/
def Sample.high (x : Sample) (cfg : MotionCfg) : Bool := decide (((cfg.shockT * cfg.shockT : Nat) : Int) ≤ x.m2)

/-- The runs started afresh at a sample whose gap rule detected a gap (R58). -/
def ShockDetector.afterGap (d : ShockDetector) (gap : Bool) : ShockDetector :=
  if gap then { d with highRun := 0, lowRun := 0 } else d

/-- Whether a sample fires a shock event (R57). -/
def ShockDetector.fires (d : ShockDetector) (cfg : MotionCfg) (high : Bool) : Bool :=
  d.armed && high && decide (cfg.shockRun ≤ d.highRun + 1)

/-- The detector after a sample is judged, less the shock total (R57). -/
def ShockDetector.judge (d : ShockDetector) (cfg : MotionCfg) (high : Bool) : ShockDetector :=
  if d.armed then
    if high then
      if cfg.shockRun ≤ d.highRun + 1 then { d with armed := false, highRun := 0, lowRun := 0 }
      else { d with highRun := d.highRun + 1 }
    else { d with highRun := 0 }
  else if high then { d with lowRun := 0 }
  else if cfg.rearm ≤ d.lowRun + 1 then { d with armed := true, lowRun := 0 }
  else { d with lowRun := d.lowRun + 1 }

/-! ### The frame start (R40–R42) -/

/-- Every waiting pending copy made active (R40, R27). -/
def MotionComputer.promote (m : MotionComputer) : MotionComputer :=
  { m with bias := m.bias.promote, mount := m.mount.promote, lens := m.lens.promote }

/-- Each axis brought into line with the active LENS copy (R42). -/
def MotionComputer.lineUp (m : MotionComputer) : MotionComputer :=
  { m with axes := ⟨m.axes.yaw.lineUp m.lens.active.axes.yaw, m.axes.pitch.lineUp m.lens.active.axes.pitch,
      m.axes.roll.lineUp m.lens.active.axes.roll⟩ }

/-- The MARGIN marks that bringing into line makes (R42). -/
def MotionComputer.lineUpMarks (m : MotionComputer) : Tri Bool :=
  ⟨marginMark m.lens.active.axes.yaw.margin m.axes.yaw.err,
    marginMark m.lens.active.axes.pitch.margin m.axes.pitch.err,
    marginMark m.lens.active.axes.roll.margin m.axes.roll.err⟩

/-- Pending copies made active outside a frame start: at MOTION_STOP, with no re-base and no mark (R27, R42). -/
def MotionComputer.promoteNow (m : MotionComputer) : MotionComputer :=
  if m.lens.pending.isSome then m.promote.lineUp else m.promote

/-- The motion computer's part of a frame start: promotion, re-base, and a new LENS copy brought into line
(R40–R42). -/
def MotionComputer.startFrame (m : MotionComputer) : MotionComputer :=
  let based := { m.promote with axes := m.axes.map Integrator.rebase }
  if m.lens.pending.isSome then based.lineUp else based

/-- The MARGIN marks of the frame start (R42). -/
def MotionComputer.startMarks (m : MotionComputer) : Tri Bool :=
  if m.lens.pending.isSome then m.promote.lineUpMarks else ⟨false, false, false⟩

/-- Whether the active LENS copy holds a gain of 0 on any axis (R42). -/
def MotionComputer.uncalibrated (m : MotionComputer) : Bool :=
  (m.lens.active.axes.map (fun a => decide (a.gain = 0))).or

end Sys2Proof.Machine
end

