-- ==== Sys2Proof/Machine/Frame.lean ====
section
/-! DEFINITION. The frame record builder (Chapter 4): starting and finishing a frame, marks, the send list, the
motion chunk accumulator; and the effects of a shock event. -/
namespace Sys2Proof.Machine

/-! ### Motion chunks (R53–R55) -/

/-- The payload of a MOTION chunk: its records end to end (R53, R175). -/
def motionPayload (recs : List FrameRecord) : List Byte := recs.flatMap FrameRecord.bytes

/-- The number of a chunk's first record. -/
def firstNumber (recs : List FrameRecord) : Word32 := (recs.head?.map FrameRecord.number).getD 0

/-- A motion chunk dropped for want of a descriptor or a page (R54). -/
def State.dropMotion (recs : List FrameRecord) (reason : DropReason) (s : State) : State :=
  State.raise { s with buffer := { s.buffer with motionDrop := s.buffer.motionDrop + 1 } }
    (.motionDrop reason (firstNumber recs) recs.length)

/-- A motion chunk enqueued READY at the tail, or dropped (R54). Where neither a descriptor nor a page is free the
reason reported is a free value (notes/assumptions/3.md). -/
def State.enqueueMotion (s : State) (recs : List FrameRecord) : State :=
  match decide (0 < s.buffer.freeDescriptors), decide (0 < s.buffer.free.length) with
  | true, true =>
    let payload := motionPayload recs
    let b := s.buffer.create .motion false ((recs.head?.map FrameRecord.stamp).getD 0) (some s.now) payload.length
      .ready
    { s with buffer := b.storePayload (s.buffer.free.take (pagesFor payload.length)) payload }
  | false, true => s.dropMotion recs .noDescriptor
  | true, false => s.dropMotion recs .noPage
  | false, false => s.chooseFree (State.dropMotion recs .noDescriptor) (State.dropMotion recs .noPage)

/-- A finished record appended to an open accumulator, which hands over N records as one chunk (R50, R53). -/
def State.accumulate (s : State) (r : FrameRecord) : State :=
  if s.frame.accOpen then
    let acc := s.frame.acc ++ [r]
    if s.clip.cfg.perChunk ≤ acc.length then
      State.enqueueMotion { s with frame := { s.frame with acc := [] } } acc
    else { s with frame := { s.frame with acc := acc } }
  else s

/-- The accumulator hands over its partial contents, if any, and closes (R55). -/
def State.handOver (s : State) : State :=
  let s' := { s with frame := s.frame.closeAcc }
  if s.frame.accOpen && !s.frame.acc.isEmpty then s'.enqueueMotion s.frame.acc else s'

/-! ### Finishing a frame (R50, R51) -/

/-- A finished record offered to the send list: it joins and goes to the accumulator, or is withheld (R50, R51). -/
def State.offerRecord (s : State) (r : FrameRecord) : State :=
  if s.frame.sendList.length < 8 then
    State.accumulate
      { s with frame := { s.frame with sendList := s.frame.sendList ++ [r], lastNumber := some r.number } } r
  else
    State.raise { s with frame := { s.frame with withheld := s.frame.withheld + 1 } }
      (.motionDrop .sendFull r.number 1)

/-- The record under construction is finished and gone (R50). -/
def State.finishFrame (s : State) : State :=
  match s.frame.record with
  | none => s
  | some r => State.offerRecord { s with frame := { s.frame with record := none } } r

/-! ### Latches (R43, R44) -/

/-- Band b latched into a record: the held X and Y, and at the middle band the held roll (R43, R44). -/
def FrameRecord.latch (r : FrameRecord) (axes : Tri Integrator) (b : Nat) : FrameRecord :=
  { r with entries := r.entries ++ [(axes.yaw.disp, axes.pitch.disp)]
           roll := if b = r.bands / 2 then axes.roll.disp else r.roll }

/-- A latch of band b into the record under construction. -/
def State.latch (s : State) (b : Nat) : State :=
  { s with frame := { s.frame with record := s.frame.record.map (fun r => r.latch s.motion.axes b) } }

/-- Latches of bands in order. -/
def State.latchAll (s : State) : List BandDue → State
  | [] => s
  | e :: es => State.latchAll (s.latch e.band) es

/-- The head entry of the band compare list expires: its band latches, and with the last band the frame finishes
(R11). -/
def State.expireBand (s : State) : State :=
  match s.capture.bands with
  | [] => s
  | e :: es =>
    let s1 := State.latch { s with capture := { s.capture with bands := es } } e.band
    if es.isEmpty then s1.finishFrame else s1

/-- The first n entries of the band compare list expire, head first. -/
def State.expireBands : Nat → State → State
  | 0, s => s
  | n + 1, s => State.expireBands n s.expireBand

/-! ### Starting a frame (R12, R40–R42, R48, R10) -/

/-- The outstanding bands of an early frame start: each latches with the correction held now, the old frame is
marked TRUNCATED and finishes (R12). -/
def State.truncateFrame (s : State) : State :=
  if s.capture.bands.isEmpty then s
  else
    let s1 := State.latchAll { s with capture := { s.capture with bands := [] } } s.capture.bands
    State.finishFrame
      { s1 with frame := { s1.frame with
          record := s1.frame.record.map (fun r => { r with flags := { r.flags with truncated := true } }) } }

/-- The next frame number (R48). -/
def FrameBuilder.nextNumber (f : FrameBuilder) : Word32 :=
  match f.lastNumber with
  | none => 1
  | some n => n + 1

/-- The flags a new frame starts with, before the late marks (R48). -/
def startFlags (drLost uncalibrated : Bool) (margin : Tri Bool) : FrameFlags :=
  { marginX := margin.yaw, marginY := margin.pitch, marginRoll := margin.roll, saturated := false, gap := drLost,
    truncated := false, shock := false, uncalibrated := uncalibrated, cadenceLost := drLost }

/-- The record opened for a frame that starts at `stamp`, the late marks taken up (R48). Its roll is not fixed before the
middle band latches; until then the model holds 0 in it: DESIGN CHOICE (notes/assumptions/28.md). -/
def FrameBuilder.openRecord (f : FrameBuilder) (stamp : Time) (bands : Nat) (flags : FrameFlags) : FrameBuilder :=
  { f with
    record := some { number := f.nextNumber, stamp := stamp, bands := bands, entries := [], roll := 0,
                     flags := flags.union f.lateFlags, shocks := shockCountAdd 0 f.lateShocks }
    inFrame := true, lateFlags := .clear, lateShocks := 0 }

/-- A frame starts at an FS edge taken now: pending copies, re-base and bringing into line, the new record, the
band compare list, and the bands due at once (R40–R42, R48, R10). -/
def State.startFrame (s : State) : State :=
  let m := s.motion.startFrame
  let flags := startFlags (decide (s.capture.dr.cadence = .lost)) m.uncalibrated s.motion.startMarks
  let bands := buildBands m.lens.active s.now
  State.expireBands (bands.takeWhile (dueAtOnce s.now)).length
    { s with motion := m, frame := s.frame.openRecord s.now m.lens.active.bands flags,
             capture := { s.capture with bands := bands } }

/-! ### Marks (R49) -/

/-- A sample's marks handed to the builder (R49). -/
def FrameBuilder.mark (f : FrameBuilder) (m : Marks) : FrameBuilder :=
  match f.record with
  | some r => { f with record := some { r with flags := r.flags.mark m } }
  | none => if f.inFrame then { f with lateFlags := f.lateFlags.mark m } else f

/-- A shock mark handed to the builder (R49). -/
def FrameBuilder.shockMark (f : FrameBuilder) : FrameBuilder :=
  match f.record with
  | some r =>
    { f with record := some { r with flags := { r.flags with shock := true }, shocks := shockCountAdd r.shocks 1 } }
  | none =>
    if f.inFrame then
      { f with lateFlags := { f.lateFlags with shock := true }, lateShocks := shockCountAdd f.lateShocks 1 }
    else f

/-! ### The builder at motion commands (R52) -/

/-- MOTION_START: the late marks cleared and no record until the first FS edge (R52). -/
def FrameBuilder.startSession (f : FrameBuilder) : FrameBuilder :=
  { f with record := none, inFrame := false, lateFlags := .clear, lateShocks := 0, lastNumber := none }

/-- MOTION_STOP: the record under construction dropped unsent, the late marks cleared (R52). -/
def FrameBuilder.stopSession (f : FrameBuilder) : FrameBuilder :=
  { f with record := none, inFrame := false, lateFlags := .clear, lateShocks := 0 }

/-! ### Shock events and samples -/

/-- The shock hold of a shock event with time t: set to t plus the hold unless a later deadline stands; a hold of 0
or a deadline already past sets none (R120). -/
def State.startShockHold (s : State) (t : Time) : State :=
  let d := later t (1000 * s.clip.cfg.shockHoldMs)
  let keepOld := match s.card.shockHold with
    | none => false
    | some old => atOrAfter old d
  if s.clip.cfg.shockHoldMs = 0 || atOrAfter s.now d || keepOld then s
  else { s with card := { s.card with shockHold := some d } }

/-- The effects of a shock event with time t (R59). SHOCK is raised before any PROTECT_REFUSED of the same event, which
fixes their order in the notice set: DESIGN CHOICE (notes/assumptions/27.md). -/
def State.shockEvent (s : State) (t : Time) : State :=
  let total := s.motion.shock.total + 1
  let s1 := { s with
    motion := { s.motion with shock := { s.motion.shock with total := total } }
    frame := s.frame.shockMark }
  ((s1.raise (.shock t total)).shockProtect t).startShockHold t

/-- The integrators' work on a sample: the fill steps of a gap and the sample's own step (R29, R30). -/
def MotionComputer.integrate (m : MotionComputer) (x : Sample) (period : Nat) : Stepped :=
  Stepped.sample m.lens.active m.gap.lastRates (m.rates x) (m.gap.measure x.stamp period).2
    { axes := m.axes, marks := ⟨false, false, false⟩ }

/-- The motion computer after a sample, less the shock total (R21, R28–R30, R57, R58). -/
def MotionComputer.afterSample (m : MotionComputer) (x : Sample) (cfg : MotionCfg) : MotionComputer :=
  let gap := (m.gap.measure x.stamp cfg.period).1
  { m with
    axes := (m.integrate x cfg.period).axes
    gap := { lastGood := some x.stamp, lastRates := m.rates x, count := if gap then m.gap.count + 1 else m.gap.count }
    shock := (m.shock.afterGap gap).judge cfg (x.high cfg)
    lastTemp := x.temp }

/-- The marks handed to the builder with a sample (R39). -/
def MotionComputer.sampleMarks (m : MotionComputer) (x : Sample) (cfg : MotionCfg) : Marks :=
  { margin := (m.integrate x cfg.period).marks, saturated := m.saturated x,
    gap := (m.gap.measure x.stamp cfg.period).1 }

/-- A sample record processed: calibrated, mapped, gap-checked, integrated, its marks handed on, and judged by the
shock detector (R18, R23–R30, R34–R39, R57–R59). -/
def State.processSample (s : State) (x : Sample) : State :=
  let m := s.motion
  let cfg := s.imu.cfg
  let s1 := { s with motion := m.afterSample x cfg, frame := s.frame.mark (m.sampleMarks x cfg) }
  if (m.shock.afterGap (m.gap.measure x.stamp cfg.period).1).fires cfg (x.high cfg) then s1.shockEvent x.stamp
  else s1

end Sys2Proof.Machine
end

