-- ==== Sys2Proof/Machine/Link.lean ====
section
/-! DEFINITION. The link controller (Chapter 10): the receive parser, malformed packets, the taking of requests and
their answers, the outbound arbiter. -/
namespace Sys2Proof.Machine

/-! ### The receive parser (R157, R158, R170) -/

/-- Whether the parser stands in the payload of an accepted MEDIA chunk. -/
def Parser.isStoring : Parser → Bool
  | .storing _ => true
  | .header | .dropping _ => false

/-- Whether the parser can take the next packet: RESET is released and no accepted payload is in progress. A payload
being dropped is at its end when the next packet comes (R157, R158, R170). -/
def State.listening (s : State) : Bool := !s.pins.reset && !s.link.parser.isStoring

/-- The parser moved. -/
def State.setParser (s : State) (x : Parser) : State := { s with link := { s.link with parser := x } }

/-- Where the parser stands at the head of `n` payload bytes that it drops; with none it is at a header (R157). -/
def dropped (n : Nat) : Parser := if n = 0 then .header else .dropping n

/-! ### Overruns (R158, R159) -/

/-- A LINK_OVERRUN: counted, and the notice raised with the header's fields (R158, R159). -/
def State.overrun (h : Header) (reason : OverrunReason) (s : State) : State :=
  State.raise { s with link := { s.link with overruns := s.link.overruns + 1 } } (.linkOverrun reason h.b0 h.b1 h.len)

/-- Whether a header's kind code names one of the four host kinds (R158). -/
def hostKind (h : Header) : Bool := decide (1 ≤ h.kindCode) && decide (h.kindCode ≤ 4)

/-- A malformed header counted and reported with its reason. With both the kind and the length bad, the reason reported
is a free value (R158, notes/assumptions/3.md). -/
def State.reportMalformed (s : State) (h : Header) : State :=
  match hostKind h, decide (h.len.toNat ≤ 65520) with
  | true, true => s
  | false, true => s.overrun h .badKind
  | true, false => s.overrun h .badLength
  | false, false => s.chooseFree (State.overrun h .badKind) (State.overrun h .badLength)

/-- A malformed header's packet consumed: reported, its payload dropped (R158). -/
def State.consumeMalformed (s : State) (h : Header) : State :=
  State.reportMalformed (s.setParser (dropped h.payloadBytes)) h

/-! ### Requests (R159–R161, R169) -/

/-- A request has arrived whole: the parser is at the header that follows, and the park flag is cleared (R157, R169). -/
def State.received (s : State) : State := { s with link := { s.link with parser := .header, parked := false } }

/-- A request's entry joins the outstanding list (R159). -/
def State.join (s : State) (tag : Byte) (kind : RequestKind) (answer : Answer) : State :=
  { s with link := { s.link with outstanding := s.link.outstanding ++ [{ tag := tag, kind := kind, answer := answer }] } }

/-- An answer ready with a result code and no data. -/
def answered (code : ResultCode) : Answer := .ready code []

/-- What the execution of a request leaves: the state, and the request's answer. -/
abbrev Executed := State × Answer

/-- A request taken: the park flag cleared (R169); executed and its answer listed, or dropped behind eight outstanding
requests (R159). Nothing is taken while RESET is asserted or an accepted payload is in progress (R157, R170), or of a
packet whose codes do not select this row (R174). -/
def State.takeRequest (s : State) (p : Packet) (selected : Bool) (kind : RequestKind) (body : State → Executed) : State :=
  if s.listening && selected then
    if 8 ≤ s.link.outstanding.length then s.received.overrun p.header .tooMany
    else
      let r := body s.received
      r.1.join p.header.b1 kind r.2
  else s

/-- A COMMAND of a command code taken: a payload of another length than the command's arguments is answered BAD_ARG
(R161, R174). -/
def State.takeCommand (s : State) (p : Packet) (code argLen : Nat) (body : State → Executed) : State :=
  s.takeRequest p (p.isCommand code) .command
    (fun s' => if p.payload.length = argLen then body s' else (s', answered .badArg))

/-- A TABLE_LOAD of a table code taken: a load that does not fit its table is answered BAD_TABLE (R164, R174). -/
def State.takeLoad (s : State) (p : Packet) (table : Nat) (fits : Bool) (body : State → Executed) : State :=
  s.takeRequest p (p.isLoad table) .tableLoad (fun s' => if fits then body s' else (s', answered .badTable))

/-- Every outstanding answer that waits as `waiting` does becomes ready with a code (R160). -/
def State.answerWaiting (s : State) (waiting : Answer) (code : ResultCode) : State :=
  let ready := fun (r : Request) => if r.answer = waiting then { r with answer := answered code } else r
  { s with link := { s.link with outstanding := s.link.outstanding.map ready } }

/-! ### The return direction (R167) -/

/-- A packet begins on the return direction. -/
def State.transmit (s : State) (bytes : List Byte) : State := { s with link := { s.link with sending := some bytes } }

/-- The entry at the head of the notice set leaves as a NOTICE packet (R166). -/
def State.sendNotice (s : State) : State :=
  match s.link.notices with
  | [] => s
  | e :: es => State.transmit { s with link := { s.link with notices := es } } (noticePacket e)

/-- The answer at the head of the outstanding list leaves, if it is ready, and otherwise a notice (R160, R166). -/
def State.sendAnswer (s : State) : State :=
  match s.link.outstanding with
  | [] => s.sendNotice
  | r :: rs =>
    match r.answer with
    | .ready code data =>
      State.transmit { s with link := { s.link with outstanding := rs } } (answerPacket r.tag code data)
    | .awaitStart | .awaitStop => s.sendNotice

/-- The outbound arbiter takes one packet while the return direction is free and RESET is released: a MOTION record
first, then a ready answer, then a notice (R167, R170). -/
def State.arbitrate (s : State) : State :=
  if s.link.sending.isSome || s.pins.reset then s
  else
    match s.frame.sendList with
    | r :: rs => State.transmit { s with frame := { s.frame with sendList := rs } } (motionPacket r)
    | [] => s.sendAnswer

/-- The end of an event that can touch the clip column: its standing work, then the arbiter. -/
def State.conclude (s : State) : State := s.settle.arbitrate

end Sys2Proof.Machine
end

