-- ==== Sys2Proof/Machine/Imu.lean ====
section
/-! DEFINITION. The IMU port (Chapter 2): init writes, the settle wait, sample reads, and the port's part of
MOTION_START and MOTION_STOP. -/
namespace Sys2Proof.Machine

/-- The port in IDLE: a MOTION_START that waited for it is answered OK (R16). -/
def State.portIdle (s : State) : State :=
  State.answerWaiting { s with imu := { s.imu with state := .idle, txn := none, settleDue := none } } .awaitStart .ok

/-- The write transaction of init pair i, its address byte sent with the top bit clear (R15, R16). -/
def ImuPort.writePair (u : ImuPort) (i : Nat) (pair : Byte × Byte) : ImuPort :=
  { u with txn := some (.write i (pair.1 &&& 0x7F) pair.2), settleDue := none }

/-- The settle wait that ends at `due`; a wait already over moves the port to IDLE at once (R16). -/
def State.settleUntil (s : State) (due : Time) : State :=
  if atOrAfter s.now due then s.portIdle
  else { s with imu := { s.imu with txn := none, settleDue := some due } }

/-- The port enters INIT: the first pair is written, or with an empty list the settle wait runs from the MOTION_START
(R16). -/
def State.startInit (s : State) (due : Time) : State :=
  let s1 := { s with imu := { s.imu with state := .init } }
  match s.imu.cfg.pairs with
  | pair :: _ => { s1 with imu := s1.imu.writePair 0 pair }
  | [] => s1.settleUntil due

/-- The write of pair i has ended: the next pair, or the settle wait (R16). -/
def State.nextPair (s : State) (i : Nat) : State :=
  match s.imu.cfg.pairs[i + 1]? with
  | some pair => { s with imu := s.imu.writePair (i + 1) pair }
  | none => s.settleUntil (later s.now (1000 * s.imu.cfg.settleMs))

/-- A transaction that was running at a MOTION_STOP has ended: the stop is answered OK, and the port goes to STOPPED,
or to INIT where a MOTION_START has been taken since (R20). -/
def State.endStale (s : State) : State :=
  let s1 := State.answerWaiting { s with imu := { s.imu with txn := none, stale := false } } .awaitStop .ok
  if s1.imu.active then s1.startInit (s1.imu.settleDue.getD s1.now)
  else { s1 with imu := { s1.imu with state := .stopped } }

/-- The byte a read transaction sends: the sample address with its top bit set (R15). -/
def MotionCfg.readByte (c : MotionCfg) : Byte := BitVec.ofNat 8 c.address ||| 0x80

/-- A DR edge handed to the port (R15, R18, R19, R17, R20). -/
def ImuPort.drEdge (u : ImuPort) (stamp : Time) : ImuPort :=
  match u.state with
  | .idle => { u with state := .reading, txn := some (.read u.cfg.readByte stamp) }
  | .reading => { u with overruns := u.overruns + 1 }
  | .stopped | .init => u

/-- The blocks' state at a MOTION_START taken with motion stopped (R7, R16, R31, R47, R52, R58). -/
def State.startSession (s : State) : State :=
  { s with
    capture := { s.capture with
      fs := s.capture.fs.startSession s.now s.motion.lens.active.framePeriod
      dr := s.capture.dr.startSession s.now s.imu.cfg.period }
    imu := { s.imu with active := true, settleDue := some (later s.now (1000 * s.imu.cfg.settleMs)) }
    motion := { s.motion with
      axes := ⟨.reset, .reset, .reset⟩
      gap := { s.motion.gap with lastGood := none, lastRates := ⟨0, 0, 0⟩ }
      shock := { s.motion.shock with armed := true, highRun := 0, lowRun := 0 } }
    frame := s.frame.startSession }

/-- MOTION_START's execution (R16, R20): BUSY while motion is active; else a session starts, the port going to INIT
at once or when the transaction running has ended. -/
def State.motionStart (s : State) : Executed :=
  if s.imu.active then (s, answered .busy)
  else
    let s1 := s.startSession
    if s1.imu.txn.isSome then (s1, .awaitStart)
    else
      let s2 := s1.startInit (later s.now (1000 * s.imu.cfg.settleMs))
      (s2, if s2.imu.state = .idle then answered .ok else .awaitStart)

/-- The blocks' state at a MOTION_STOP that stops motion (R7, R13, R27, R45, R52). -/
def State.stopSession (s : State) : State :=
  { s with
    capture := { s.capture with fs := s.capture.fs.stopSession, dr := s.capture.dr.stopSession, bands := [] }
    imu := { s.imu with active := false, settleDue := none }
    motion := s.motion.promoteNow
    frame := s.frame.stopSession }

/-- MOTION_STOP's execution (R17, R20, R162). -/
def State.motionStop (s : State) : Executed :=
  if s.clip.state.isOpen then (s, answered .busy)
  else if s.imu.active then
    let s1 := s.stopSession.answerWaiting .awaitStart .busy
    if s1.imu.txn.isSome then ({ s1 with imu := { s1.imu with stale := true } }, .awaitStop)
    else ({ s1 with imu := { s1.imu with state := .stopped } }, answered .ok)
  else (s, answered .ok)

end Sys2Proof.Machine
end

