-- ==== Sys2Proof/Machine/CaptureEvents.lean ====
section
/-! DEFINITION. The meanings of the capture unit's rows: FS_EDGE, DR_EDGE, LOSS_DEADLINE_EXPIRY, BAND_EXPIRY. -/
namespace Sys2Proof.Machine

/-- The FS edge just taken judged against the period of the copy active for the frame it ends (R4, R6). -/
def State.judgeFs (s : State) : State :=
  s.judged .fs (s.capture.fs.judge s.motion.lens.active.framePeriod) s.now

/-- The FS loss deadline set again with the period of the copy now active (R4, R5). -/
def State.rearmFs (s : State) : State :=
  s.setChannel .fs (s.capture.fs.rearm s.motion.lens.active.framePeriod)

/-- FS_EDGE's effect: ignored in PARK; taken; with motion active judged, any outstanding bands dealt with, and a new
frame started (R2, R4, R6, R10, R12, R48). That the edge is judged before the bands are dealt with, so that CADENCE stands
before MOTION_DROP where both are newly raised: DESIGN CHOICE (notes/assumptions/37.md). -/
def State.onFsEdge (s : State) : State :=
  if s.link.parked then s
  else
    let s1 := s.setChannel .fs (s.capture.fs.take s.now)
    if s.imu.active then s1.judgeFs.truncateFrame.startFrame.rearmFs.conclude else s1

/-- FS_EDGE (R2). -/
def execFsEdge (s : State) : Host.Outcome State Fault Refusal := .next s.onFsEdge

/-- The DR edge just taken judged, and its loss deadline set again (R4–R6). -/
def State.judgeDr (s : State) : State :=
  s.judged .dr ((s.capture.dr.judge s.imu.cfg.period).rearm s.imu.cfg.period) s.now

/-- DR_EDGE's effect: ignored in PARK; taken; with motion active judged; handed to the IMU port (R2, R6, R18, R19). -/
def State.onDrEdge (s : State) : State :=
  if s.link.parked then s
  else
    let s1 := s.setChannel .dr (s.capture.dr.take s.now)
    let s2 := if s.imu.active then s1.judgeDr else s1
    State.arbitrate { s2 with imu := s2.imu.drEdge s2.now }

/-- DR_EDGE (R2). -/
def execDrEdge (s : State) : Host.Outcome State Fault Refusal := .next s.onDrEdge

/-- LOSS_DEADLINE_EXPIRY's effect on a channel whose deadline has been reached: LOST, with CADENCE where it was
LOCKED, at the expired deadline (R5, R8). -/
def State.onLossDeadlineExpiry (ch : Channel) (s : State) : State :=
  match (s.capture.get ch).deadline with
  | none => s
  | some d => if atOrAfter s.now d then (s.judged ch (s.capture.get ch).expire d).arbitrate else s

/-- LOSS_DEADLINE_EXPIRY (R5). -/
def execLossDeadlineExpiry (ch : Channel) (s : State) : Host.Outcome State Fault Refusal :=
  .next (s.onLossDeadlineExpiry ch)

/-- Whether the head entry of the band compare list is due (R11). -/
def State.bandReached (s : State) : Bool := reached s.now (s.capture.bands.head?.map BandDue.due)

/-- BAND_EXPIRY's effect: the head entry, when due, expires (R11). -/
def State.onBandExpiry (s : State) : State := if s.bandReached then s.expireBand.conclude else s

/-- BAND_EXPIRY (R11). -/
def execBandExpiry (s : State) : Host.Outcome State Fault Refusal := .next s.onBandExpiry

end Sys2Proof.Machine
end

