-- ==== Sys2Proof/Machine/CardEvents.lean ====
section
/-! DEFINITION. The meanings of the card rows: the CLAIM and CDET lines, the card's answers, entering RUN, the
timeouts, and the end of a shock hold. -/
namespace Sys2Proof.Machine

/-! ### CLAIM (R118, R119) -/

/-- CLAIM_ASSERT's effect: the bus released at once and the card YIELDED; a line already asserted is not asserted again
(R118). A grant given and not yet entered on makes it a CLAIM in RUN (R150). -/
def State.onClaimAssert (s : State) : State :=
  if s.pins.claim then s
  else ((State.enterGranted { s with pins := { s.pins with claim := true } }).yieldCard).conclude

/-- CLAIM_ASSERT (R118). -/
def execClaimAssert (s : State) : Host.Outcome State Fault Refusal := .next s.onClaimAssert

/-- The card taken back at the release of CLAIM: INIT where the presence shows a card, with WAKE first where the CLAIM
was taken in SLEEP, and ABSENT otherwise (R105, R119). -/
def State.takeBack (s : State) : State :=
  let s1 := { s with card := { s.card with leftAsleep := false } }
  if s.card.present then s1.beginInit .claimRelease s.card.leftAsleep else s1.setCardState .absent

/-- CLAIM_RELEASE's effect (R119). -/
def State.onClaimRelease (s : State) : State :=
  if s.pins.claim then
    let s1 := { s with pins := { s.pins with claim := false } }
    if s.card.state = .yielded then s1.takeBack.conclude else s1
  else s

/-- CLAIM_RELEASE (R119). -/
def execClaimRelease (s : State) : Host.Outcome State Fault Refusal := .next s.onClaimRelease

/-! ### CDET (R104, R122) -/

/-- CDET_CHANGE's effect: the line's settling time starts, or a running one is cancelled (R104). -/
def State.onCdetChange (level : Bool) (s : State) : State :=
  if level = s.pins.card then s
  else
    { s with pins := { s.pins with card := level }
             card := { s.card with settleDue := settleDeadline s.now level s.card.present } }

/-- CDET_CHANGE (R104). -/
def execCdetChange (level : Bool) (s : State) : Host.Outcome State Fault Refusal := .next (s.onCdetChange level)

/-- A settled change of the presence, with CARD_PRESENCE (R104). -/
def State.setPresence (s : State) (b : Bool) : State :=
  State.raise { s with card := { s.card with present := b, settleDue := none } } (.cardPresence b s.now)

/-- CARD_INSERTION's effect: the presence, and INIT from ABSENT (R104, R105). -/
def State.onCardInsertion (s : State) : State :=
  if s.pins.card && !s.card.present && reached s.now s.card.settleDue then
    let s1 := s.setPresence true
    (if s.card.state = .absent then s1.beginInit .insertion false else s1).conclude
  else s

/-- CARD_INSERTION (R104). -/
def execCardInsertion (s : State) : Host.Outcome State Fault Refusal := .next s.onCardInsertion

/-- CARD_REMOVAL's effect: the presence, and the loss of the card. A grant given and not yet entered on makes it a removal
in RUN (R104, R122, R150). -/
def State.onCardRemoval (s : State) : State :=
  if !s.pins.card && s.card.present && reached s.now s.card.settleDue then
    (s.setPresence false).enterGranted.removeCard.conclude
  else s

/-- CARD_REMOVAL (R122). -/
def execCardRemoval (s : State) : Host.Outcome State Fault Refusal := .next s.onCardRemoval

/-! ### The card's answers (R103) -/

/-- The capacity of this try noted and STATUS sent (R105). -/
def State.noteCapacity (s : State) (capacity : Word32) : State :=
  State.send
    { s with card := { s.card with ident := s.card.ident.map (fun i => { i with capacity := some capacity }) } }
    .status

/-- IDENTIFY_RESPONSE's effect: the try goes on to STATUS; a capacity of 0 counts as no response (R103, R105, R114). -/
def State.onIdentifyResponse (capacity : Word32) (s : State) : State :=
  match s.awaited with
  | some .identify => if capacity = 0 then s else (s.noteCapacity capacity).conclude
  | _ => s

/-- IDENTIFY_RESPONSE (R105). -/
def execIdentifyResponse (capacity : Word32) (s : State) : Host.Outcome State Fault Refusal :=
  .next (s.onIdentifyResponse capacity)

/-- CARD_STATUS_RESPONSE's effect: the try succeeds or fails (R105, R114). -/
def State.onCardStatusResponse (ready : Bool) (s : State) : State :=
  match s.awaited with
  | some .status => (s.clearBus.judgeTry ready).conclude
  | _ => s

/-- CARD_STATUS_RESPONSE (R105). -/
def execCardStatusResponse (ready : Bool) (s : State) : Host.Outcome State Fault Refusal :=
  .next (s.onCardStatusResponse ready)

/-- A woken card goes on: IDENTIFY in an identification, OPEN_RUN in RUN (R105, R107). -/
def State.wakeDone (s : State) : State :=
  if s.card.ident.isSome then s.send .identify else s.clearBus.openRun

/-- WAKE_ACK's effect (R105, R107). -/
def State.onWakeAck (s : State) : State :=
  match s.awaited with
  | some .wake => s.wakeDone.conclude
  | _ => s

/-- WAKE_ACK (R107). -/
def execWakeAck (s : State) : Host.Outcome State Fault Refusal := .next s.onWakeAck

/-- SLEEP_ACK's effect: the card is in SLEEP (R121). -/
def State.onSleepAck (s : State) : State :=
  match s.awaited with
  | some .sleep => (s.clearBus.setCardState .sleep).conclude
  | _ => s

/-- SLEEP_ACK (R121). -/
def execSleepAck (s : State) : Host.Outcome State Fault Refusal := .next s.onSleepAck

/-! ### Runs (R107–R111) -/

/-- ENTER_RUN's effect (R106, R107). -/
def State.onEnterRun (s : State) : State := if s.runGranted then s.enterRunState.conclude else s

/-- ENTER_RUN (R107). -/
def execEnterRun (s : State) : Host.Outcome State Fault Refusal := .next s.onEnterRun

/-- OPEN_RUN_ACK's effect: the first block checked and sent (R108). -/
def State.onOpenRunAck (s : State) : State :=
  match s.awaited, s.card.run with
  | some (.openRun _ _), some r => (s.nextBlock r).conclude
  | _, _ => s

/-- OPEN_RUN_ACK (R108). -/
def execOpenRunAck (s : State) : Host.Outcome State Fault Refusal := .next s.onOpenRunAck

/-- BLOCK_TOKEN's effect: ACCEPTED starts the busy deadline, CRC_REJECT is a failed attempt (R103, R110). -/
def State.onBlockToken (accepted : Bool) (s : State) : State :=
  match s.awaited, s.card.run with
  | some (.block addr _), some r => (if accepted then s.send (.busy addr) else s.failedAttempt r).conclude
  | _, _ => s

/-- BLOCK_TOKEN (R103). -/
def execBlockToken (accepted : Bool) (s : State) : Host.Outcome State Fault Refusal :=
  .next (s.onBlockToken accepted)

/-- BUSY_END's effect: DONE acknowledges the block, PROGRAM_FAIL is a failed attempt (R103, R108, R110). -/
def State.onBusyEnd (programmed : Bool) (s : State) : State :=
  match s.awaited, s.card.run with
  | some (.busy _), some r => (if programmed then s.blockDone r else s.failedAttempt r).conclude
  | _, _ => s

/-- BUSY_END (R108). -/
def execBusyEnd (programmed : Bool) (s : State) : Host.Outcome State Fault Refusal := .next (s.onBusyEnd programmed)

/-- CLOSE_RUN_ACK's effect: the run ends, a retry reopens it, or a failed block is skipped (R109–R111). -/
def State.onCloseRunAck (s : State) : State :=
  match s.awaited, s.card.run with
  | some .closeRun, some r => (s.runClosed r).conclude
  | _, _ => s

/-- CLOSE_RUN_ACK (R109). -/
def execCloseRunAck (s : State) : Host.Outcome State Fault Refusal := .next s.onCloseRunAck

/-! ### Timeouts (R113) -/

/-- CARD_TIMEOUT's effect: the operation in flight, other than a busy, has gone unanswered (R105, R113, R114). -/
def State.onCardTimeout (s : State) : State :=
  match s.timedOut with
  | none | some (.busy _) => s
  | some op => (s.commandTimeout op).conclude

/-- CARD_TIMEOUT (R113). -/
def execCardTimeout (s : State) : Host.Outcome State Fault Refusal := .next s.onCardTimeout

/-- BUSY_TIMEOUT's effect: a busy has not ended in time (R113). -/
def State.onBusyTimeout (s : State) : State :=
  match s.timedOut with
  | some (.busy _) => (s.runTimeout .busyTimeout).conclude
  | _ => s

/-- BUSY_TIMEOUT (R113). -/
def execBusyTimeout (s : State) : Host.Outcome State Fault Refusal := .next s.onBusyTimeout

/-! ### The shock hold (R120) -/

/-- A shock hold ended: the retry that waited for it proceeds (R110, R120). -/
def State.endShockHold (s : State) : State :=
  let s1 := { s with card := { s.card with shockHold := none } }
  match s.card.run with
  | some r => if r.awaitHold then s1.retryRun r else s1
  | none => s1

/-- SHOCK_HOLD_EXPIRY's effect (R120). -/
def State.onShockHoldExpiry (s : State) : State :=
  if reached s.now s.card.shockHold then s.endShockHold.conclude else s

/-- SHOCK_HOLD_EXPIRY (R120). -/
def execShockHoldExpiry (s : State) : Host.Outcome State Fault Refusal := .next s.onShockHoldExpiry

end Sys2Proof.Machine
end

