-- ==== Sys2Proof/Machine/ClipCommands.lean ====
section
/-! DEFINITION. The meanings of the clip commands: CLIP_START, CLIP_STOP, FLUSH, SEGMENT_FREE, SEGMENT_PROTECT,
SEGMENT_UNPROTECT. -/
namespace Sys2Proof.Machine

/-! ### CLIP_START (R90) -/

/-- The mode a code names (R90, R173). -/
def clipModeOf (code : Nat) : Option ClipMode :=
  match code with
  | 0 => some .loop
  | 1 => some .linear
  | _ => none

/-- A clip opened in slot i (R90, R64, R53, R155). -/
def State.openClip (s : State) (clip : Word32) (mode : ClipMode) (i : Nat) : State :=
  State.takeSlot
    { s with
      clip := { s.clip with state := .recording, clipNumber := clip, mode := mode }
      buffer := { s.buffer with nextSeq := 1 }
      frame := { s.frame with accOpen := true, acc := [] }
      budget := { s.budget with ordered := false, orderPending := false } } i

/-- CLIP_START's execution, the tests in R90's order. -/
def State.clipStart (s : State) (args : List Byte) : Executed :=
  if s.clip.state ≠ .idle then (s, answered .busy)
  else
    match clipModeOf (leNat (slice args 4 1)) with
    | none => (s, answered .badArg)
    | some mode =>
      if s.card.state = .ready ∨ s.card.state = .sleep then
        match s.seekSlot mode none 65 with
        | (s1, none) => (s1, answered .noSegment)
        | (s1, some i) => (s1.openClip (BitVec.ofNat 32 (leNat (slice args 0 4))) mode i, answered .ok)
      else (s, answered .noCard)

/-- CLIP_START's effect. -/
def State.onClipStart (p : Packet) (s : State) : State :=
  (s.takeCommand p 1 5 (fun s' => s'.clipStart p.payload)).conclude

/-- CLIP_START (R90). -/
def execClipStart (p : Packet) (s : State) : Host.Outcome State Fault Refusal := .next (s.onClipStart p)

/-! ### CLIP_STOP (R99) -/

/-- The close that CLIP_STOP begins: CLOSING, the stop mark handed over, a flush requested (R55, R76, R99). -/
def State.beginStop (s : State) : State :=
  let s1 := (s.setClipState .closing).handOver
  s1.requestFlush s1.buffer.lastQueued

/-- CLIP_STOP's execution (R99). -/
def State.clipStop (s : State) : Executed :=
  match s.clip.state with
  | .recording | .rolloverWait => (s.beginStop, answered .ok)
  | .idle | .closing | .emergency => (s, answered .busy)

/-- CLIP_STOP's effect. -/
def State.onClipStop (p : Packet) (s : State) : State := (s.takeCommand p 2 0 State.clipStop).conclude

/-- CLIP_STOP (R99). -/
def execClipStop (p : Packet) (s : State) : Host.Outcome State Fault Refusal := .next (s.onClipStop p)

/-! ### FLUSH (R76, R162) -/

/-- FLUSH's execution: the mark is the last descriptor in the queue (R76). -/
def State.flushCommand (s : State) : Executed := (s.requestFlush s.buffer.lastQueued, answered .ok)

/-- FLUSH's effect. -/
def State.onFlush (p : Packet) (s : State) : State := (s.takeCommand p 3 0 State.flushCommand).conclude

/-- FLUSH (R76). -/
def execFlush (p : Packet) (s : State) : Host.Outcome State Fault Refusal := .next (s.onFlush p)

/-! ### SEGMENT_FREE (R86) -/

/-- The slot number of a segment command (R174). -/
def slotArg (args : List Byte) : Nat := leNat (slice args 0 1)

/-- SEGMENT_FREE's execution (R86). -/
def State.segmentFree (s : State) (i : Nat) : Executed :=
  let x := s.clip.slot i
  if 63 < i ∨ x.state = .empty then (s, answered .badArg)
  else if x.state = .filling ∨ x.prot.isSome then (s, answered .busy)
  else if x.state = .free then (s, answered .ok)
  else (s.setSlot i x.freed, answered .ok)

/-- SEGMENT_FREE's effect. -/
def State.onSegmentFree (p : Packet) (s : State) : State :=
  (s.takeCommand p 4 1 (fun s' => s'.segmentFree (slotArg p.payload))).arbitrate

/-- SEGMENT_FREE (R86). -/
def execSegmentFree (p : Packet) (s : State) : Host.Outcome State Fault Refusal := .next (s.onSegmentFree p)

/-! ### SEGMENT_PROTECT and SEGMENT_UNPROTECT (R87) -/

/-- SEGMENT_PROTECT's execution (R87). -/
def State.segmentProtect (s : State) (i : Nat) : Executed :=
  let x := s.clip.slot i
  if 63 < i ∨ x.state = .empty ∨ x.state = .free ∨ x.state = .unusable then (s, answered .badArg)
  else if x.prot.isSome then (s, answered .ok)
  else if s.clip.protectedCount < s.clip.cfg.protectLimit then
    (s.setSlot i { x with prot := some .host }, answered .ok)
  else (s, answered .limit)

/-- SEGMENT_PROTECT's effect. -/
def State.onSegmentProtect (p : Packet) (s : State) : State :=
  (s.takeCommand p 5 1 (fun s' => s'.segmentProtect (slotArg p.payload))).arbitrate

/-- SEGMENT_PROTECT (R87). -/
def execSegmentProtect (p : Packet) (s : State) : Host.Outcome State Fault Refusal := .next (s.onSegmentProtect p)

/-- SEGMENT_UNPROTECT's execution (R87). -/
def State.segmentUnprotect (s : State) (i : Nat) : Executed :=
  if 63 < i then (s, answered .badArg)
  else (s.setSlot i { s.clip.slot i with prot := none }, answered .ok)

/-- SEGMENT_UNPROTECT's effect. -/
def State.onSegmentUnprotect (p : Packet) (s : State) : State :=
  (s.takeCommand p 6 1 (fun s' => s'.segmentUnprotect (slotArg p.payload))).arbitrate

/-- SEGMENT_UNPROTECT (R87). -/
def execSegmentUnprotect (p : Packet) (s : State) : Host.Outcome State Fault Refusal :=
  .next (s.onSegmentUnprotect p)

end Sys2Proof.Machine
end

