-- ==== Sys2Proof/Machine/MediaEvents.lean ====
section
/-! DEFINITION. The meanings of the receive side's rows: MEDIA_HEADER, MEDIA_PAYLOAD_COMPLETE, LATENCY_EXPIRY,
MALFORMED_PACKET. -/
namespace Sys2Proof.Machine

/-! ### The fields of a MEDIA header (R66, R174) -/

/-- The chunk kind of bits 4–6 of byte 0: 1, 2, 3 give VIDEO, AUDIO, DATA and any other value gives DATA. -/
def mediaKind (h : Header) : ChunkKind :=
  match h.b0.toNat / 16 % 8 with
  | 1 => .video
  | 2 => .audio
  | _ => .data

/-- The keyframe flag, bit 7 of byte 0, kept for a VIDEO chunk only. -/
def mediaKey (h : Header) : Bool := decide (128 ≤ h.b0.toNat) && decide (mediaKind h = .video)

/-- The host timestamp: bits 0–7 in byte 1, bits 8–39 in bytes 4–7. -/
def mediaTime (h : Header) : Time := BitVec.ofNat 40 (h.b1.toNat + 256 * h.tail.toNat)

/-! ### Acceptance (R65, R67) -/

/-- The judgement of a MEDIA header: the reason it is refused for, or none where it is accepted (R65). -/
def State.refusal (s : State) (h : Header) : Option DiscardReason :=
  if s.link.parked then some .parked
  else
    match s.clip.state with
    | .idle | .closing => some .notRecording
    | .emergency => some .emergency
    | .recording | .rolloverWait => if s.buffer.hasRoom h.len.toNat then none else some .noSpace

/-- A MEDIA packet refused: counted and reported, its payload dropped (R67). -/
def State.discardMedia (s : State) (reason : DiscardReason) (h : Header) : State :=
  State.raise
    (State.setParser { s with buffer := { s.buffer with mediaDiscard := s.buffer.mediaDiscard + 1 } }
      (.dropping h.len.toNat))
    (.mediaDiscard reason (mediaTime h))

/-- A MEDIA chunk accepted at its header: a RECEIVING descriptor at the tail, its payload stored as it comes (R65,
R157). -/
def State.acceptMedia (s : State) (h : Header) : State :=
  State.setParser
    { s with buffer := s.buffer.create (mediaKind h) (mediaKey h) (mediaTime h) none h.len.toNat .receiving }
    (.storing h.len.toNat)

/-- A well-formed MEDIA header judged; a payload length of 0 carries no chunk and ends the packet (R65–R67, R157). -/
def State.judgeMedia (s : State) (h : Header) : State :=
  if h.len = 0 then s.setParser .header
  else
    match s.refusal h with
    | some reason => s.discardMedia reason h
    | none => s.acceptMedia h

/-- MEDIA_HEADER's effect. No header is taken while RESET is asserted or a payload is still being stored, and none whose
kind is not MEDIA (R65, R157, R170, R174). -/
def State.onMediaHeader (h : Header) (s : State) : State :=
  if s.listening && !h.isMalformed && decide (h.kindCode = 1) then (s.judgeMedia h).conclude else s

/-- MEDIA_HEADER (R65). -/
def execMediaHeader (h : Header) (s : State) : Host.Outcome State Fault Refusal := .next (s.onMediaHeader h)

/-- The RECEIVING descriptor whose payload has this length. -/
def ChunkBuffer.receiving (b : ChunkBuffer) (length : Nat) : Option Chunk :=
  b.queue.find? (fun c => decide (c.state = .receiving) && decide (c.length = length))

/-- The descriptor of a completed payload: READY, arrived now (R66). -/
def Chunk.complete (seq : Word32) (now : Time) (c : Chunk) : Chunk :=
  if c.seq = seq ∧ c.state = .receiving then { c with state := .ready, arrival := some now } else c

/-- The payload of chunk `c` stored and its descriptor READY (R66). -/
def State.completeMedia (s : State) (c : Chunk) (payload : List Byte) : State :=
  { s with buffer := (s.buffer.storePayload c.pages payload).mapQueue (Chunk.complete c.seq s.now) }

/-- The last byte of an accepted payload has come: the RECEIVING chunk becomes READY; where the chunk has been discarded
meanwhile the payload is dropped (R66, R71). -/
def State.payloadArrived (payload : List Byte) (s : State) : State :=
  match s.buffer.receiving payload.length with
  | none => s
  | some c => (s.completeMedia c payload).conclude

/-- MEDIA_PAYLOAD_COMPLETE's effect: the parser is at the header that follows, and the chunk accepted is complete. The
payload of a refused chunk is consumed with no other effect (R66, R67, R157). -/
def State.onMediaPayloadComplete (payload : List Byte) (s : State) : State :=
  if s.pins.reset then s
  else
    match s.link.parser with
    | .header => s
    | .dropping n => if n = payload.length then s.setParser .header else s
    | .storing n => if n = payload.length then State.payloadArrived payload (s.setParser .header) else s

/-- MEDIA_PAYLOAD_COMPLETE (R66). -/
def execMediaPayloadComplete (payload : List Byte) (s : State) : Host.Outcome State Fault Refusal :=
  .next (s.onMediaPayloadComplete payload)

/-- Whether the latency deadline has been reached and not yet expired (R75). -/
def State.latencyReached (s : State) : Bool := reached s.now s.buffer.latDeadline && !s.buffer.latExpired

/-- LATENCY_EXPIRY's effect: the latency trigger's clock condition stands (R74, R75). -/
def State.onLatencyExpiry (s : State) : State :=
  if s.latencyReached then State.conclude { s with buffer := { s.buffer with latExpired := true } } else s

/-- LATENCY_EXPIRY (R75). -/
def execLatencyExpiry (s : State) : Host.Outcome State Fault Refusal := .next s.onLatencyExpiry

/-- MALFORMED_PACKET's effect: consumed, counted and reported. Nothing is taken while RESET is asserted or an accepted
payload is in progress (R157, R158, R170). -/
def State.onMalformedPacket (h : Header) (s : State) : State :=
  if s.listening && h.isMalformed then (s.consumeMalformed h).arbitrate else s

/-- MALFORMED_PACKET (R158). -/
def execMalformedPacket (h : Header) (s : State) : Host.Outcome State Fault Refusal := .next (s.onMalformedPacket h)

end Sys2Proof.Machine
end

