-- ==== Sys2Proof/Machine/Snapshot.lean ====
section
/-! DEFINITION. The STATUS snapshot (R163, R177): 240 bytes, each row of R177's table filled to its length. -/
namespace Sys2Proof.Machine

/-- A capture record with its cadence state: 24 bytes (R177). -/
def Capture.bytes (c : Capture) : List Byte :=
  padTo 24 (leBytes 8 c.last.toNat ++ leBytes 8 c.prev.toNat ++ leBytes 4 c.count.toNat ++ leBytes 1 c.cadence.code)

/-- Offsets 48–67: the IMU port, the pending copies and the gap state. -/
def State.imuBytes (s : State) : List Byte :=
  let m := s.motion
  padTo 20 (leBytes 4 s.imu.overruns.toNat ++ leSigned 2 m.lastTemp ++ leBytes 1 s.imu.state.code ++
    leBytes 1 (m.lens.pending.isSome.toNat + 2 * m.bias.pending.isSome.toNat + 4 * m.mount.pending.isSome.toNat) ++
    leBytes 4 m.gap.count.toNat ++ leBytes 8 (optTime m.gap.lastGood))

/-- One axis's error and held displacement. -/
def Integrator.bytes (i : Integrator) : List Byte := leSigned 8 i.err ++ leSigned 2 i.disp

/-- Offsets 68–107: the axes, the withheld-record count, the shock total and the detector. -/
def State.motionBytes (s : State) : List Byte :=
  let m := s.motion
  padTo 40 (m.axes.yaw.bytes ++ m.axes.pitch.bytes ++ m.axes.roll.bytes ++ leBytes 4 s.frame.withheld.toNat ++
    leBytes 4 m.shock.total.toNat ++ [flagByte (!m.shock.armed)])

/-- Offsets 108–139: the chunk buffer. -/
def ChunkBuffer.bytes (b : ChunkBuffer) : List Byte :=
  padTo 32 (leBytes 4 b.accepted.toNat ++ leBytes 4 b.written.toNat ++ leBytes 4 b.discarded.toNat ++
    leBytes 4 b.mediaDiscard.toNat ++ leBytes 4 b.motionDrop.toNat ++ leBytes 2 b.free.length ++
    leBytes 2 b.freeDescriptors ++ leBytes 4 b.pendingBytes ++ [flagByte b.hold, flagByte b.flush.isSome])

/-- Offsets 140–147: the clip recorder. -/
def ClipRecorder.bytes (c : ClipRecorder) : List Byte :=
  padTo 4 (leBytes 1 c.state.code ++ leBytes 1 ((c.filling.map Filling.slot).getD 255)) ++
  leBytes 4 c.protectRefused.toNat

/-- Offsets 148–171: the card controller. -/
def State.cardBytes (s : State) : List Byte :=
  let c := s.card
  padTo 8 (leBytes 1 c.state.code ++ [flagByte c.present] ++ leBytes 1 s.budget.grant.code ++
    leBytes 1 c.recovery ++ [flagByte c.shockHold.isSome] ++ leBytes 1 c.badList.length) ++
  leBytes 4 c.capacity.toNat ++ leBytes 4 c.corrected.toNat ++ leBytes 4 c.overflow.toNat ++ leBytes 4 c.logSeq.toNat

/-- Offsets 172–195: the charge controller, with the byte given for its zone. -/
def ChargeController.bytes (c : ChargeController) (zone : Byte) : List Byte :=
  padTo 8 (leBytes 1 c.stage.code ++ leBytes 1 (chargeFaultCode c.fault) ++ leBytes 1 c.causes.code ++
    leBytes 1 c.resume.code ++ [flagByte c.inhibit, zone] ++ leBytes 1 c.die.code) ++
  leBytes 2 c.runCount ++ leBytes 4 c.elapsed ++ leSigned 2 c.ceiling ++ leBytes 8 c.safety

/-- Offsets 196–231: the input budget and gauge. -/
def Budget.bytes (b : Budget) : List Byte :=
  padTo 36 (leBytes 4 b.updates.toNat ++ leSigned 2 b.readings.vbat ++ leSigned 2 b.readings.ibat ++
    leSigned 2 b.readings.vin ++ leSigned 2 b.readings.iin ++ leSigned 2 b.readings.tbat ++
    leSigned 2 b.readings.tdie ++ leSigned 2 b.setpoint ++ leSigned 2 b.limitEff ++ leSigned 2 b.inputLimit ++
    leSigned 2 b.cfg.capacity ++ leBytes 4 b.charge ++ leBytes 1 b.percent ++
    [flagByte b.estimated, flagByte b.inputPresent] ++ leBytes 1 b.lowRun ++ [flagByte b.lowState, flagByte b.ordered])

/-- Offsets 232–239: the link controller, while a request is executed that is itself outstanding (R159, R163). -/
def Link.bytes (l : Link) : List Byte :=
  padTo 4 ([flagByte l.parked] ++ leBytes 1 (l.outstanding.length + 1) ++ leBytes 1 l.notices.length) ++
  leBytes 4 l.overruns.toNat

/-- The STATUS snapshot of R177, with the byte given for the zone. -/
def State.snapshotWith (s : State) (zone : Byte) : List Byte :=
  s.capture.fs.bytes ++ s.capture.dr.bytes ++ s.imuBytes ++ s.motionBytes ++ s.buffer.bytes ++ s.clip.bytes ++
  s.cardBytes ++ s.charge.bytes zone ++ s.budget.bytes ++ s.link.bytes

/-- The snapshot taken at this moment. Before any zone is in force its byte is a free value (R126,
notes/assumptions/3.md). -/
def State.snapshot (s : State) : State × List Byte :=
  match s.charge.zone with
  | some z => (s, s.snapshotWith (BitVec.ofNat 8 z.code))
  | none => ({ s with freeCount := s.freeCount + 1 }, s.snapshotWith (Config.freeByte s.freeCount))

end Sys2Proof.Machine
end

