-- ==== Sys2Proof/Machine/Tables.lean ====
section
/-! DEFINITION. The tables (section 10.3): what a load of each makes of its entries, and the entries a read of each
returns. -/
namespace Sys2Proof.Machine

/-! ### WINDOW (R83) -/

/-- Word i of the window map (R83). -/
def windowWord (w : BitVec 32768) (i : Nat) : Nat := (w.extractLsb' (32 * i) 32).toNat

/-- Word i of the window map replaced (R83). -/
def setWindowWord (w : BitVec 32768) (i v : Nat) : BitVec 32768 :=
  (w &&& ~~~(BitVec.ofNat 32768 0xFFFFFFFF <<< (32 * i))) ||| (BitVec.ofNat 32768 v <<< (32 * i))

/-- Words written from word i on (R83). -/
def setWindowWords (w : BitVec 32768) : Nat → List Nat → BitVec 32768
  | _, [] => w
  | i, v :: vs => setWindowWords (setWindowWord w i v) (i + 1) vs

/-- A WINDOW load (R83). -/
def State.loadWindow (s : State) (p : Packet) : Executed :=
  if s.clip.state = .idle then
    ({ s with clip := { s.clip with window := setWindowWords s.clip.window p.header.firstEntry (loadedWords p) } },
      answered .ok)
  else (s, answered .busy)

/-! ### SEGMENT (R85) -/

/-- An entry of a SEGMENT load: slot, first granule, granule count (R176). -/
structure SegmentEntry where
  slot  : Nat
  first : Nat
  count : Nat
  deriving DecidableEq, Repr

/-- The entries of a SEGMENT load (R176). -/
def segmentEntries (p : Packet) : List SegmentEntry :=
  (pieces 6 p.header.entryCount p.payload).map
    (fun bs => ⟨leNat (slice bs 0 1), leNat (slice bs 2 2), leNat (slice bs 4 2)⟩)

/-- Whether two extents share a granule. -/
def overlaps (a ca b cb : Nat) : Bool := decide (a < b + cb) && decide (b < a + ca)

/-- Whether a named slot is neither EMPTY nor FREE (R85). -/
def ClipRecorder.slotBusy (c : ClipRecorder) (e : SegmentEntry) : Bool :=
  decide (e.slot < 64) && decide ((c.slot e.slot).state ≠ .empty) && decide ((c.slot e.slot).state ≠ .free)

/-- Whether an extent lies wholly on granules the part may write (R85). -/
def State.extentWritable (s : State) (e : SegmentEntry) : Bool :=
  (List.range e.count).all (fun j => s.granuleWritable (e.first + j))

/-- Whether an extent meets that of another slot that is not EMPTY (R85). -/
def ClipRecorder.extentTaken (c : ClipRecorder) (e : SegmentEntry) : Bool :=
  c.numbered.any (fun x =>
    decide (x.1 ≠ e.slot) && decide (x.2.state ≠ .empty) && overlaps e.first e.count x.2.first x.2.count)

/-- The checks of one entry on its own (R85). -/
def State.segmentEntryOk (s : State) (e : SegmentEntry) : Bool :=
  decide (e.slot < 64) && decide (1 ≤ e.count) && decide (e.count ≤ 4096) && decide (e.first + e.count ≤ 32768) &&
  s.extentWritable e && !s.clip.extentTaken e

/-- No two entries name one slot or share a granule (R85). -/
def entriesApart : List SegmentEntry → Bool
  | [] => true
  | e :: es =>
    es.all (fun e' => decide (e'.slot ≠ e.slot) && !overlaps e.first e.count e'.first e'.count) && entriesApart es

/-- A slot made FREE with a new extent (R85). -/
def ClipRecorder.loadSlot (c : ClipRecorder) (e : SegmentEntry) : ClipRecorder :=
  c.setSlot e.slot { (c.slot e.slot).freed with first := e.first, count := e.count }

/-- A SEGMENT load (R85). -/
def State.loadSegments (s : State) (p : Packet) : Executed :=
  let es := segmentEntries p
  if es.any s.clip.slotBusy then (s, answered .busy)
  else if es.all s.segmentEntryOk && entriesApart es then
    ({ s with clip := es.foldl ClipRecorder.loadSlot s.clip }, answered .ok)
  else (s, answered .badArg)

/-! ### BIAS, MOUNT, LENS (R9, R22, R25, R27, R33) -/

/-- A BIAS load (R22). -/
def State.loadBias (s : State) (p : Packet) : Executed :=
  let v := overlay s.motion.bias.newest p.header.firstEntry ((loadedInts p).map (clampInt (-65536) 65535))
  ({ s with motion := { s.motion with bias := s.motion.bias.store s.imu.active v } }, answered .ok)

/-- The MOUNT entries as axis code and sign code (R176). -/
def mountCodes (m : Tri MountSource) : List (Nat × Nat) :=
  [m.yaw, m.pitch, m.roll].map (fun x => (x.axis, x.negative.toNat))

/-- The entries of a MOUNT load (R176). -/
def loadedMount (p : Packet) : List (Nat × Nat) :=
  (pieces 2 p.header.entryCount p.payload).map (fun bs => ((bs.getD 0 0).toNat, (bs.getD 1 0).toNat))

/-- A MOUNT table from its codes, when they name three different axes with proper signs (R25). -/
def mountOf : List (Nat × Nat) → Option (Tri MountSource)
  | [a, b, c] =>
    if [a, b, c].all (fun x => decide (x.1 ≤ 2) && decide (x.2 ≤ 1)) ∧ a.1 ≠ b.1 ∧ a.1 ≠ c.1 ∧ b.1 ≠ c.1 then
      some ⟨⟨a.1, decide (a.2 = 1)⟩, ⟨b.1, decide (b.2 = 1)⟩, ⟨c.1, decide (c.2 = 1)⟩⟩
    else none
  | _ => none

/-- A MOUNT load (R25). -/
def State.loadMount (s : State) (p : Packet) : Executed :=
  match mountOf (overlay (mountCodes s.motion.mount.newest) p.header.firstEntry (loadedMount p)) with
  | none => (s, answered .badArg)
  | some v =>
    ({ s with motion := { s.motion with mount := s.motion.mount.store s.imu.active v } }, answered .ok)

/-- The band count made a power of two (R9). -/
def adjustBands (v : Int) : Nat :=
  if v < 2 then 1 else if v < 4 then 2 else if v < 8 then 4 else if v < 16 then 8 else 16

/-- The 13 entries of a LENS copy (R33). -/
def Lens.entries (l : Lens) : List Int :=
  [(l.framePeriod : Int), l.bands, l.readout, l.latchOffset] ++
  [l.axes.yaw, l.axes.pitch, l.axes.roll].flatMap (fun a => [(a.shift : Int), (a.margin : Int), (a.gain : Int)])

/-- One axis's parameters from entries, each clamped (R33). -/
def lensAxisOf (shift margin gain : Int) : LensAxis :=
  { shift := (clampInt 1 15 shift).toNat, margin := (clampInt 0 1073741824 margin).toNat,
    gain := (clampInt 0 1048575 gain).toNat }

/-- A LENS copy from its entries, each brought into range (R9, R33). -/
def lensOf (e : List Int) : Lens :=
  { framePeriod := (clampInt 4000 100000 (e.getD 0 0)).toNat, bands := adjustBands (e.getD 1 0),
    readout := (clampInt 1000 50000 (e.getD 2 0)).toNat, latchOffset := clampInt (-20000) 20000 (e.getD 3 0),
    axes := ⟨lensAxisOf (e.getD 4 0) (e.getD 5 0) (e.getD 6 0), lensAxisOf (e.getD 7 0) (e.getD 8 0) (e.getD 9 0),
      lensAxisOf (e.getD 10 0) (e.getD 11 0) (e.getD 12 0)⟩ }

/-- A LENS load; one that becomes active at once brings the axes into line (R9, R27, R33, R42). -/
def State.loadLens (s : State) (p : Packet) : Executed :=
  let v := lensOf (overlay s.motion.lens.newest.entries p.header.firstEntry (loadedInts p))
  let m := { s.motion with lens := s.motion.lens.store s.imu.active v }
  ({ s with motion := if s.imu.active then m else m.lineUp }, answered .ok)

/-! ### MOTION_CFG (R14, R56) -/

/-- A sample rate rounded down to a listed one (R14). -/
def adjustRate (v : Int) : Nat := if v < 2000 then 1000 else if v < 4000 then 2000 else 4000

/-- MOTION_CFG from its 8 leading fields and its pairs (R14, R56). -/
def motionCfgOf (e : List Int) (pairs : List (Byte × Byte)) : MotionCfg :=
  { rate := adjustRate (e.getD 0 0), spiClock := (clampInt 1 16 (e.getD 1 0)).toNat,
    address := (clampInt 0 127 (e.getD 2 0)).toNat, settleMs := (clampInt 0 100 (e.getD 3 0)).toNat,
    shockT := (clampInt 1 32767 (e.getD 4 0)).toNat, shockRun := (clampInt 1 16 (e.getD 5 0)).toNat,
    rearm := (clampInt 1 1023 (e.getD 6 0)).toNat, pairs := pairs }

/-- The init pairs of a MOTION_CFG load: register address, then value (R176). -/
def loadedPairs (p : Packet) : List (Byte × Byte) :=
  ((pieces 4 p.header.entryCount p.payload).drop 8).map (fun bs => (bs.getD 0 0, bs.getD 1 0))

/-- A MOTION_CFG load (R14). -/
def State.loadMotionCfg (s : State) (p : Packet) : Executed :=
  let e := (loadedInts p).take 8
  let n := e.getD 7 0
  if s.imu.active then (s, answered .busy)
  else if n < 0 ∨ 16 < n ∨ (loadedPairs p).any (fun x => decide (127 < x.1.toNat)) then (s, answered .badArg)
  else ({ s with imu := { s.imu with cfg := motionCfgOf e (loadedPairs p) } }, answered .ok)

/-! ### CLIP_CFG (R81, R120, R121) -/

/-- The 11 entries of CLIP_CFG (section 10.3). -/
def ClipCfg.entries (c : ClipCfg) : List Int :=
  [(c.areaBase : Int), c.sizeCode, c.allowance, c.protectLimit, c.preEventS, c.emergencyBudget, c.perChunk,
    c.batchKiB, c.latencyMs, (c.sleepEnable.toNat : Int), c.shockHoldMs]

/-- CLIP_CFG from its entries, the size code in range (R81, R120, R121). The area base is the unsigned word. -/
def clipCfgOf (e : List Int) : ClipCfg :=
  { areaBase := (BitVec.ofInt 32 (e.getD 0 0)).toNat, sizeCode := (e.getD 1 0).toNat,
    allowance := (clampInt 0 65535 (e.getD 2 0)).toNat, protectLimit := (clampInt 0 32 (e.getD 3 0)).toNat,
    preEventS := (clampInt 0 60 (e.getD 4 0)).toNat, emergencyBudget := (clampInt 0 65535 (e.getD 5 0)).toNat,
    perChunk := (clampInt 1 30 (e.getD 6 0)).toNat, batchKiB := (clampInt 64 1024 (e.getD 7 0)).toNat,
    latencyMs := (clampInt 50 2000 (e.getD 8 0)).toNat, sleepEnable := decide (e.getD 9 0 ≠ 0),
    shockHoldMs := (clampInt 0 500 (e.getD 10 0)).toNat }

/-- A CLIP_CFG load (R81). -/
def State.loadClipCfg (s : State) (p : Packet) : Executed :=
  let e := overlay s.clip.cfg.entries p.header.firstEntry (loadedInts p)
  let c := clipCfgOf e
  if s.clip.state ≠ .idle then (s, answered .busy)
  else if e.getD 1 0 < 0 ∨ 3 < e.getD 1 0 then (s, answered .badArg)
  else if c.protectLimit < s.clip.protectedCount then (s, answered .limit)
  else ({ s with clip := { s.clip with cfg := c } }, answered .ok)

/-! ### CHARGE_PROFILE (R125) -/

/-- The 23 entries of CHARGE_PROFILE (sections 8.2, 10.3). -/
def ChargeProfile.entries (p : ChargeProfile) : List Int :=
  [p.coolCurrent, p.coolVoltage, p.normalCurrent, p.normalVoltage, p.warmCurrent, p.warmVoltage, p.preThreshold,
    p.preCurrent, p.preMinutes, p.fastMinutes, p.termination, p.topOffMinutes, p.rechargeDrop, p.rampStep, p.rampMs,
    p.backOff, p.t0, p.t1, p.t2, p.t3, p.hysteresis, p.tWarn, p.tCrit]

/-- CHARGE_PROFILE from its entries, every field clamped (R125). -/
def chargeProfileOf (e : List Int) : ChargeProfile :=
  { coolCurrent := clampInt 0 4000 (e.getD 0 0), coolVoltage := clampInt 3800 4400 (e.getD 1 0),
    normalCurrent := clampInt 50 4000 (e.getD 2 0), normalVoltage := clampInt 3800 4400 (e.getD 3 0),
    warmCurrent := clampInt 0 4000 (e.getD 4 0), warmVoltage := clampInt 3800 4400 (e.getD 5 0),
    preThreshold := clampInt 2500 3600 (e.getD 6 0), preCurrent := clampInt 10 500 (e.getD 7 0),
    preMinutes := clampInt 1 120 (e.getD 8 0), fastMinutes := clampInt 10 600 (e.getD 9 0),
    termination := clampInt 10 1000 (e.getD 10 0), topOffMinutes := clampInt 0 120 (e.getD 11 0),
    rechargeDrop := clampInt 50 400 (e.getD 12 0), rampStep := clampInt 10 500 (e.getD 13 0),
    rampMs := clampInt 10 1000 (e.getD 14 0), backOff := clampInt 10 1000 (e.getD 15 0),
    t0 := clampInt (-400) 1000 (e.getD 16 0), t1 := clampInt (-400) 1000 (e.getD 17 0),
    t2 := clampInt (-400) 1000 (e.getD 18 0), t3 := clampInt (-400) 1000 (e.getD 19 0),
    hysteresis := clampInt 0 100 (e.getD 20 0), tWarn := clampInt 500 1400 (e.getD 21 0),
    tCrit := clampInt 600 1500 (e.getD 22 0) }

/-- Whether the zone thresholds rise strictly and T_warn is below T_crit (R125). -/
def ChargeProfile.ordered (p : ChargeProfile) : Bool :=
  decide (p.t0 < p.t1) && decide (p.t1 < p.t2) && decide (p.t2 < p.t3) && decide (p.tWarn < p.tCrit)

/-- The PROFILE cause of a load stored: in every stage but IDLE and FAULT it joins, the resume stage becomes QUALIFY,
and a charging stage goes to HOLD (R125, R135). -/
def State.profileCause (s : State) : State :=
  if s.charge.stage = .idle ∨ s.charge.stage = .fault then s
  else
    let s1 := { s with charge := { s.charge with
      causes := { s.charge.causes with profile := true }, resume := .qualify } }
    if s.charge.stage = .hold then s1 else s1.enterHold.updateCeiling

/-- A CHARGE_PROFILE load (R125). -/
def State.loadChargeProfile (s : State) (p : Packet) : Executed :=
  let v := chargeProfileOf (overlay s.charge.profile.entries p.header.firstEntry (loadedInts p))
  if v.ordered then (State.profileCause { s with charge := { s.charge with profile := v } }, answered .ok)
  else (s, answered .badArg)

/-! ### OCV (R151) and BUDGET_CFG (R145, R154) -/

/-- Whether values rise strictly. -/
def risesStrictly : List Int → Bool
  | a :: b :: rest => decide (a < b) && risesStrictly (b :: rest)
  | _ => true

/-- An OCV load (R151). -/
def State.loadOcv (s : State) (p : Packet) : Executed :=
  let v := overlay s.budget.ocv p.header.firstEntry ((loadedInts p).map (clampInt 2500 4500))
  if risesStrictly v then
    ({ s with budget := { s.budget with ocv := v, estimateDue := s.budget.estimateDue || s.budget.estimated } },
      answered .ok)
  else (s, answered .badArg)

/-- The 9 entries of BUDGET_CFG (sections 9.2, 10.3). -/
def BudgetCfg.entries (c : BudgetCfg) : List Int :=
  [c.presentMv, c.absentMv, c.vinMin, c.headroom, c.band, c.burstReserve, c.capacity, c.closeReserve, c.cutoff]

/-- BUDGET_CFG from its entries, every field clamped (R145). -/
def budgetCfgOf (e : List Int) : BudgetCfg :=
  { presentMv := clampInt 3000 6000 (e.getD 0 0), absentMv := clampInt 3000 6000 (e.getD 1 0),
    vinMin := clampInt 3000 6000 (e.getD 2 0), headroom := clampInt 0 1000 (e.getD 3 0),
    band := clampInt 0 1000 (e.getD 4 0), burstReserve := clampInt 0 1000 (e.getD 5 0),
    capacity := clampInt 100 8000 (e.getD 6 0), closeReserve := clampInt 0 1000 (e.getD 7 0),
    cutoff := clampInt 2800 4000 (e.getD 8 0) }

/-- BUDGET_CFG stored: a change of capacity rescales the charge and sets ESTIMATED (R154). -/
def Budget.setCfg (b : Budget) (c : BudgetCfg) : Budget :=
  if c.capacity = b.cfg.capacity then { b with cfg := c }
  else { b with cfg := c, charge := b.charge * c.capacity.toNat / b.cfg.capacity.toNat, estimated := true }

/-- A BUDGET_CFG load (R124, R145). -/
def State.loadBudgetCfg (s : State) (p : Packet) : Executed :=
  let c := budgetCfgOf (overlay s.budget.cfg.entries p.header.firstEntry (loadedInts p))
  if c.absentMv < c.presentMv ∧ c.closeReserve < c.capacity then
    ({ s with budget := s.budget.setCfg c }, answered .ok)
  else (s, answered .badArg)

/-! ### Reads (R165, R176) -/

/-- Entries as signed 32-bit words. -/
def intEntries (e : List Int) : List (List Byte) := e.map (leSigned 4)

/-- The entries of MOTION_CFG: the 8 leading fields and the stored pairs (R14, R165). -/
def MotionCfg.rows (c : MotionCfg) : List (List Byte) :=
  intEntries [(c.rate : Int), c.spiClock, c.address, c.settleMs, c.shockT, c.shockRun, c.rearm, c.pairs.length] ++
  c.pairs.map (fun x => [x.1, x.2, 0, 0])

/-- The entries of the table with a given code, each as the bytes a read returns, and whether the table is of fixed
size; no table has any other code (R165, R176). The STATUS entry is the snapshot given. -/
def State.tableRows (s : State) (code : Nat) (snapshot : List Byte) : Option (Bool × List (List Byte)) :=
  match code with
  | 1 => some (true, (List.range 1024).map (fun i => leBytes 4 (windowWord s.clip.window i)))
  | 2 => some (true, s.clip.numbered.map (fun x => x.2.bytes x.1))
  | 3 => some (true, intEntries s.motion.bias.newest)
  | 4 => let m := s.motion.mount.newest
         some (true, [m.yaw, m.pitch, m.roll].map MountSource.bytes)
  | 5 => some (true, intEntries s.motion.lens.newest.entries)
  | 6 => some (true, s.imu.cfg.rows)
  | 7 => some (true, intEntries s.clip.cfg.entries)
  | 8 => some (true, intEntries s.charge.profile.entries)
  | 9 => some (true, intEntries s.budget.ocv)
  | 10 => some (true, intEntries s.budget.cfg.entries)
  | 11 => some (false, s.card.badList.map BadGranule.bytes)
  | 12 => some (false, s.card.log.map LogEntry.bytes)
  | 13 => some (true, [snapshot])
  | _ => none

/-- As many entries from the front as fit in `room` bytes (R165). -/
def fitting : Nat → List (List Byte) → List (List Byte)
  | _, [] => []
  | room, e :: es => if e.length ≤ room then e :: fitting (room - e.length) es else []

/-- The answer to a TABLE_READ of given rows: BAD_TABLE where a fixed table has no such first entry, otherwise the
number of entries and the entries, as many as the count asks and 65520 bytes hold (R165, R174). An answer BAD_TABLE
carries no data, not even a count of 0: DESIGN CHOICE (notes/assumptions/32.md). -/
def readAnswer (isFixed : Bool) (rows : List (List Byte)) (first count : Nat) : Answer :=
  if isFixed && decide (rows.length ≤ first) then answered .badTable
  else
    let wanted := if count = 0 then rows.drop first else (rows.drop first).take count
    let got := fitting 65518 wanted
    .ready .ok (leBytes 2 got.length ++ got.flatten)

/-- A TABLE_READ's execution: every table but STATUS is read as it stands, STATUS by a snapshot (R163, R165). -/
def State.readTable (s : State) (p : Packet) : Executed :=
  let snap := if p.header.tableCode = 13 then s.snapshot else (s, [])
  match s.tableRows p.header.tableCode snap.2 with
  | none => (s, answered .badTable)
  | some (isFixed, rows) => (snap.1, readAnswer isFixed rows p.header.firstEntry p.header.entryCount)

end Sys2Proof.Machine
end

