-- ==== Sys2Proof/Machine/Resets.lean ====
section
/-! DEFINITION. Host reset, by the RESET line or RESTART, block by block (R170–R172 and each block's own rule), and
power-on. -/
namespace Sys2Proof.Machine

/-- The capture unit at host reset: both records and monitors as at power-on, the list empty, the ride clock running
on (R1, R3, R13). -/
def CaptureUnit.hostReset (c : CaptureUnit) : CaptureUnit := { CaptureUnit.reset with clock := c.clock }

/-- The IMU port at host reset: any transaction cut off, MOTION_CFG kept (R17, R20). -/
def ImuPort.hostReset (u : ImuPort) : ImuPort := { ImuPort.reset with cfg := u.cfg }

/-- The motion computer at host reset: the active copies kept, the rest as at power-on (R21, R27, R31, R47, R58). -/
def MotionComputer.hostReset (m : MotionComputer) : MotionComputer :=
  { MotionComputer.reset with bias := m.bias.dropPending, mount := m.mount.dropPending, lens := m.lens.dropPending }

/-- The chunk buffer at host reset: as at power-on, the pages' bytes left as they are (R60, R79). -/
def ChunkBuffer.hostReset (b : ChunkBuffer) : ChunkBuffer := { ChunkBuffer.reset with ram := b.ram }

/-- The clip recorder at host reset: a FILLING slot becomes INTERRUPTED and the clip record is cleared (R102). -/
def State.resetClip (s : State) : State :=
  let s1 := s.interruptSlot
  { s1 with clip := { s1.clip with
      state := .idle, filling := none, clipNumber := 0, mode := .loop, protectRefused := 0 } }

/-- The origin of the INIT that host reset begins. Whether an INIT that it starts again from the first try is still
the one begun by an insertion or a release of CLAIM is open (R105, notes/assumptions/3.md). -/
def State.withResetOrigin (s : State) (k : IdentOrigin → State → State) : State :=
  match s.card.state, s.card.ident with
  | .init, some i => s.chooseFree (k i.origin) (k .hostReset)
  | _, _ => k .hostReset s

/-- The card controller at host reset (R123): the run abandoned, the grant released, no shock hold, then YIELDED,
INIT or ABSENT. A card last left asleep by the part is woken first (R105). -/
def State.resetCard (s : State) : State :=
  if s.pins.claim then
    let s1 := s.abandonCard
    { s1 with card := { s1.card with state := .yielded, shockHold := none } }
  else if s.card.present then
    s.withResetOrigin (fun origin s' =>
      let s1 := s'.abandonCard
      State.beginInit { s1 with card := { s1.card with shockHold := none, leftAsleep := false } } origin
        (decide (s.card.state = .sleep)))
  else
    let s1 := s.abandonCard
    { s1 with card := { s1.card with state := .absent, shockHold := none, leftAsleep := false } }

/-- The input budget at host reset: the low run and low state cleared, an order not yet taken gone with the clip
(R149, R156). -/
def Budget.hostReset (b : Budget) : Budget := { b with lowRun := 0, lowState := false, orderPending := false }

/-- The link controller at host reset; the overrun count is kept (R172). -/
def Link.hostReset (l : Link) : Link := { Link.reset with overruns := l.overruns }

/-- A host reset; a grant given and not yet entered on makes it one in RUN (R106, R150, R172). -/
def State.hostReset (s : State) : State :=
  let s1 := s.enterGranted.resetClip.resetCard
  { s1 with
    capture := s1.capture.hostReset, imu := s1.imu.hostReset, motion := s1.motion.hostReset, frame := .reset,
    buffer := s1.buffer.hostReset, budget := s1.budget.hostReset, link := s1.link.hostReset }

/-- Power-on with the input lines as they stand: presence is taken at once from CDET; the card is YIELDED with
CARD_TAKEN if CLAIM is asserted, in INIT if CDET shows a card, and ABSENT otherwise (R1, R3, R104, R123). -/
def State.powerOn (s : State) : State :=
  let s1 := { State.reset with pins := s.pins, freeCount := s.freeCount, pending := s.pending,
                               card := { CardController.reset with present := s.pins.card } }
  if s.pins.claim then
    State.raise { s1 with card := { s1.card with state := .yielded } } (.cardTaken .absent 0)
  else if s.pins.card then s1.beginInit .powerOn false
  else s1

end Sys2Proof.Machine
end

