-- ==== Sys2Proof/Machine/PartCommands.lean ====
section
/-! DEFINITION. The meanings of the motion, charge, budget, card and part-wide commands: MOTION_START to
UNKNOWN_COMMAND in the table's order. -/
namespace Sys2Proof.Machine

/-! ### Motion (R16, R162) -/

/-- MOTION_START's effect. -/
def State.onMotionStart (p : Packet) (s : State) : State := (s.takeCommand p 7 0 State.motionStart).arbitrate

/-- MOTION_START (R16). -/
def execMotionStart (p : Packet) (s : State) : Host.Outcome State Fault Refusal := .next (s.onMotionStart p)

/-- MOTION_STOP's effect. -/
def State.onMotionStop (p : Packet) (s : State) : State := (s.takeCommand p 8 0 State.motionStop).arbitrate

/-- MOTION_STOP (R162). -/
def execMotionStop (p : Packet) (s : State) : Host.Outcome State Fault Refusal := .next (s.onMotionStop p)

/-! ### Charging (R138, R139) -/

/-- The inhibit flag and the cause that follows it (R138). -/
def ChargeController.setInhibit (c : ChargeController) (b : Bool) : ChargeController :=
  { c with inhibit := b, causes := { c.causes with inhibit := b } }

/-- CHARGE_INHIBIT's execution: a charging stage enters HOLD at once (R135, R138, R141). -/
def State.chargeInhibit (s : State) : Executed :=
  let s1 := { s with charge := s.charge.setInhibit true }
  (if s.charge.stage.isHoldable then s1.enterHold.updateCeiling else s1, answered .ok)

/-- CHARGE_INHIBIT's effect. -/
def State.onChargeInhibit (p : Packet) (s : State) : State := (s.takeCommand p 9 0 State.chargeInhibit).arbitrate

/-- CHARGE_INHIBIT (R138). -/
def execChargeInhibit (p : Packet) (s : State) : Host.Outcome State Fault Refusal := .next (s.onChargeInhibit p)

/-- CHARGE_ALLOW's execution: HOLD is left when the last cause goes (R137, R138, R141). -/
def State.chargeAllow (s : State) : Executed :=
  let s1 := { s with charge := s.charge.setInhibit false }
  (if s.charge.stage = .hold ∧ s1.charge.causes.any = false then s1.leaveHold.updateCeiling else s1, answered .ok)

/-- CHARGE_ALLOW's effect. -/
def State.onChargeAllow (p : Packet) (s : State) : State := (s.takeCommand p 10 0 State.chargeAllow).arbitrate

/-- CHARGE_ALLOW (R138). -/
def execChargeAllow (p : Packet) (s : State) : Host.Outcome State Fault Refusal := .next (s.onChargeAllow p)

/-- CHARGE_CLEAR's execution: FAULT is left for IDLE (R139). -/
def State.chargeClear (s : State) : Executed :=
  (if s.charge.stage = .fault then (s.enterStage .idle 0 none).updateCeiling else s, answered .ok)

/-- CHARGE_CLEAR's effect. -/
def State.onChargeClear (p : Packet) (s : State) : State := (s.takeCommand p 11 0 State.chargeClear).arbitrate

/-- CHARGE_CLEAR (R139). -/
def execChargeClear (p : Packet) (s : State) : Host.Outcome State Fault Refusal := .next (s.onChargeClear p)

/-! ### The input limit (R146) -/

/-- INPUT_LIMIT's execution: the value clamped to 100..5000 (R146). -/
def State.setInputLimit (s : State) (args : List Byte) : Executed :=
  ({ s with budget := { s.budget with inputLimit := clampInt 100 5000 (leNat args : Int) } }, answered .ok)

/-- INPUT_LIMIT's effect. -/
def State.onInputLimit (p : Packet) (s : State) : State :=
  (s.takeCommand p 12 2 (fun s' => s'.setInputLimit p.payload)).arbitrate

/-- INPUT_LIMIT (R146). -/
def execInputLimit (p : Packet) (s : State) : Host.Outcome State Fault Refusal := .next (s.onInputLimit p)

/-! ### The card (R115, R117) -/

/-- CARD_RETRY's execution: a card in FAULT enters INIT (R105, R115). -/
def State.cardRetry (s : State) : Executed :=
  match s.card.state with
  | .fault => (s.beginInit .cardRetry false, answered .ok)
  | .absent => (s, answered .noCard)
  | .init | .ready | .sleep | .run | .recover | .yielded => (s, answered .busy)

/-- CARD_RETRY's effect. -/
def State.onCardRetry (p : Packet) (s : State) : State := (s.takeCommand p 13 0 State.cardRetry).arbitrate

/-- CARD_RETRY (R115). -/
def execCardRetry (p : Packet) (s : State) : Host.Outcome State Fault Refusal := .next (s.onCardRetry p)

/-- LOG_CLEAR's execution: the log and the suppression set emptied, the counts kept (R117). -/
def State.logClear (s : State) : Executed :=
  ({ s with card := { s.card with log := [], suppressed := [] } }, answered .ok)

/-- LOG_CLEAR's effect. -/
def State.onLogClear (p : Packet) (s : State) : State := (s.takeCommand p 14 0 State.logClear).arbitrate

/-- LOG_CLEAR (R117). -/
def execLogClear (p : Packet) (s : State) : Host.Outcome State Fault Refusal := .next (s.onLogClear p)

/-! ### STATUS (R163) -/

/-- STATUS's execution: the snapshot taken at this moment (R163). -/
def State.statusCommand (s : State) : Executed := (s.snapshot.1, .ready .ok s.snapshot.2)

/-- STATUS's effect. -/
def State.onStatus (p : Packet) (s : State) : State := (s.takeCommand p 15 0 State.statusCommand).arbitrate

/-- STATUS (R163). -/
def execStatus (p : Packet) (s : State) : Host.Outcome State Fault Refusal := .next (s.onStatus p)

/-! ### PARK (R168) -/

/-- The part parked: the flag set and a READY card with nothing in flight sent SLEEP (R123, R168). -/
def State.enterPark (s : State) : State :=
  let s1 := { s with link := { s.link with parked := true } }
  if s.card.state = .ready ∧ s.card.bus.isNone then s1.sendSleep else s1

/-- PARK's execution (R168). -/
def State.parkCommand (s : State) : Executed :=
  if s.clip.state = .idle ∧ s.imu.active = false then (s.enterPark, answered .ok) else (s, answered .busy)

/-- PARK's effect. -/
def State.onPark (p : Packet) (s : State) : State := (s.takeCommand p 16 0 State.parkCommand).arbitrate

/-- PARK (R168). -/
def execPark (p : Packet) (s : State) : Host.Outcome State Fault Refusal := .next (s.onPark p)

/-! ### RESTART (R171) -/

/-- RESTART's effect: a host reset, whatever the outstanding list holds; with a payload it is a request answered
BAD_ARG like any other (R170, R171). -/
def State.onRestart (p : Packet) (s : State) : State :=
  if s.listening && p.isCommand 17 && p.payload.isEmpty then s.hostReset.arbitrate
  else (s.takeCommand p 17 0 (fun s' => (s', answered .ok))).arbitrate

/-- RESTART (R171). -/
def execRestart (p : Packet) (s : State) : Host.Outcome State Fault Refusal := .next (s.onRestart p)

/-! ### Codes that name no command (R161) -/

/-- UNKNOWN_COMMAND's effect: answered UNKNOWN (R161). -/
def State.onUnknownCommand (p : Packet) (s : State) : State :=
  (s.takeRequest p p.isUnknown .command (fun s' => (s', answered .unknown))).arbitrate

/-- UNKNOWN_COMMAND (R161). -/
def execUnknownCommand (p : Packet) (s : State) : Host.Outcome State Fault Refusal := .next (s.onUnknownCommand p)

end Sys2Proof.Machine
end

