-- ==== Sys2Proof/Machine/PartEvents.lean ====
section
/-! DEFINITION. The meanings of RETURN_PACKET_SENT, MONITOR_UPDATE and EMERGENCY_CLOSE. -/
namespace Sys2Proof.Machine

/-! ### The return direction (R167) -/

/-- RETURN_PACKET_SENT's effect: the return direction is free, and the arbiter chooses afresh (R167). -/
def State.onReturnPacketSent (s : State) : State :=
  State.arbitrate { s with link := { s.link with sending := none } }

/-- RETURN_PACKET_SENT (R167). -/
def execReturnPacketSent (s : State) : Host.Outcome State Fault Refusal := .next s.onReturnPacketSent

/-! ### The monitor update (R144) -/

/-- MONITOR_UPDATE's effect: at the end of a pass, the update (R143, R144). -/
def State.onMonitorUpdate (conv : Conversions) (s : State) : State :=
  if s.passEnded then (s.monitorUpdate conv).arbitrate else s

/-- MONITOR_UPDATE (R144). -/
def execMonitorUpdate (conv : Conversions) (s : State) : Host.Outcome State Fault Refusal :=
  .next (s.onMonitorUpdate conv)

/-! ### The emergency close (R100) -/

/-- Steps 2 and 3 of R100 on the segment: the emergency limit set, a ROLLOVER or FORCED close cancelled. -/
def Filling.enterEmergency (f : Filling) (budget : Nat) : Filling :=
  { f with limit := min ((f.front + budget) * 512) f.capacity,
           pending := if f.pending = some .damaged then some .damaged else none }

/-- The first chunk whose placement a DAMAGED close withdrew: PLACED, with no placement standing (R97, R100). -/
def ChunkBuffer.firstWithdrawn (b : ChunkBuffer) : Option Chunk :=
  b.queue.find? (fun c => decide (c.state = .placed) && c.place.isNone)

/-- Step 3 of R100 on the queue: where a DAMAGED close is pending, the chunks it withdrew, with every descriptor after
them, discarded. -/
def ChunkBuffer.discardWithdrawn (b : ChunkBuffer) (pending : Option CloseCause) : ChunkBuffer :=
  match pending, b.firstWithdrawn with
  | some .damaged, some c => b.discardFrom c.seq
  | _, _ => b

/-- Steps 2 to 4 of R100. -/
def State.boundEmergency (s : State) : State :=
  match s.clip.filling with
  | none => s
  | some f =>
    let f1 := f.enterEmergency s.clip.cfg.emergencyBudget
    let s1 := State.setFilling { s with buffer := s.buffer.discardWithdrawn f.pending } f1
    match s1.buffer.firstPast f1.limit with
    | none => s1
    | some c => s1.emergencyDiscard f1 c.seq

/-- An open clip's emergency close, steps 1 to 5 of R100. -/
def State.beginEmergency (s : State) : State :=
  let s1 := (s.setClipState .emergency).handOver.boundEmergency
  s1.requestFlush s1.buffer.lastQueued

/-- The order taken by the clip recorder (R100, R144). -/
def State.takeOrder (s : State) : State :=
  let s1 := { s with budget := { s.budget with orderPending := false } }
  match s.clip.state with
  | .recording | .rolloverWait | .closing => s1.beginEmergency.conclude
  | .idle | .emergency => s1

/-- EMERGENCY_CLOSE's effect: an order that waits takes effect (R100). -/
def State.onEmergencyClose (s : State) : State := if s.budget.orderPending then s.takeOrder else s

/-- EMERGENCY_CLOSE (R100). -/
def execEmergencyClose (s : State) : Host.Outcome State Fault Refusal := .next s.onEmergencyClose

end Sys2Proof.Machine
end

