-- ==== Sys2Proof/Machine/Power.lean ====
section
/-! DEFINITION. The meanings of the power and RESET line rows: POWER_ON, RESET_ASSERT, RESET_RELEASE. -/
namespace Sys2Proof.Machine

/-- POWER_ON's effect: every block in its power-on condition, then the outbound arbiter (R1, R157, R172). -/
def State.onPowerOn (s : State) : State := s.powerOn.arbitrate

/-- POWER_ON (R1 and each block's own rule). -/
def execPowerOn (s : State) : Host.Outcome State Fault Refusal := .next s.onPowerOn

/-- RESET_ASSERT's effect: a host reset, the line held from here on; a line already asserted is not asserted again
(R170, R172). -/
def State.onResetAssert (s : State) : State :=
  if s.pins.reset then s else State.hostReset { s with pins := { s.pins with reset := true } }

/-- RESET_ASSERT (R170). -/
def execResetAssert (s : State) : Host.Outcome State Fault Refusal := .next s.onResetAssert

/-- RESET_RELEASE's effect: the line released and the arbiter resumed (R170). -/
def State.onResetRelease (s : State) : State :=
  if s.pins.reset then State.arbitrate { s with pins := { s.pins with reset := false } } else s

/-- RESET_RELEASE (R170). -/
def execResetRelease (s : State) : Host.Outcome State Fault Refusal := .next s.onResetRelease

end Sys2Proof.Machine
end

