-- ==== Sys2Proof/Machine/SensorEvents.lean ====
section
/-! DEFINITION. The meanings of the IMU port's rows: INIT_WRITE_DONE, SETTLE_EXPIRY, READ_COMPLETE. -/
namespace Sys2Proof.Machine

/-- INIT_WRITE_DONE's effect: after the write of a pair the next pair or the settle wait; a write that was running at
a MOTION_STOP lets that stop take effect (R16, R17, R20). -/
def State.onInitWriteDone (s : State) : State :=
  match s.imu.txn with
  | some (.write i _ _) => (if s.imu.stale then s.endStale else s.nextPair i).arbitrate
  | some (.read ..) => s
  | none => s

/-- INIT_WRITE_DONE (R16). -/
def execInitWriteDone (s : State) : Host.Outcome State Fault Refusal := .next s.onInitWriteDone

/-- Whether the settle wait of INIT has run out (R16). -/
def State.settleReached (s : State) : Bool :=
  decide (s.imu.state = .init) && s.imu.txn.isNone && reached s.now s.imu.settleDue

/-- SETTLE_EXPIRY's effect: the port goes to IDLE and MOTION_START is answered OK (R16). -/
def State.onSettleExpiry (s : State) : State := if s.settleReached then s.portIdle.arbitrate else s

/-- SETTLE_EXPIRY (R16). -/
def execSettleExpiry (s : State) : Host.Outcome State Fault Refusal := .next s.onSettleExpiry

/-- The port back in IDLE after a read (R18). -/
def State.readDone (s : State) : State := { s with imu := { s.imu with state := .idle, txn := none } }

/-- READ_COMPLETE's effect: the sample record of the bytes read is processed; a read that was running at a MOTION_STOP
is discarded instead (R18, R20). -/
def State.onReadComplete (bytes : List Byte) (s : State) : State :=
  match s.imu.txn with
  | some (.read _ stamp) =>
    if s.imu.stale then s.endStale.arbitrate else (s.readDone.processSample (sampleOf bytes stamp)).conclude
  | some (.write ..) => s
  | none => s

/-- READ_COMPLETE (R18). -/
def execReadComplete (bytes : List Byte) (s : State) : Host.Outcome State Fault Refusal :=
  .next (s.onReadComplete bytes)

end Sys2Proof.Machine
end

