-- ==== Sys2Proof/Machine/TableCommands.lean ====
section
/-! DEFINITION. The meanings of the table operations: one for each table that can be loaded, TABLE_LOAD_OTHER and
TABLE_READ. -/
namespace Sys2Proof.Machine

/-- WINDOW_LOAD's effect (R164). -/
def State.onWindowLoad (p : Packet) (s : State) : State :=
  (s.takeLoad p 1 (loadFits p 1024 4) (fun s' => s'.loadWindow p)).arbitrate

/-- WINDOW_LOAD (R83). -/
def execWindowLoad (p : Packet) (s : State) : Host.Outcome State Fault Refusal := .next (s.onWindowLoad p)

/-- SEGMENT_LOAD's effect (R164). -/
def State.onSegmentLoad (p : Packet) (s : State) : State :=
  (s.takeLoad p 2 (segmentFits p) (fun s' => s'.loadSegments p)).arbitrate

/-- SEGMENT_LOAD (R85). -/
def execSegmentLoad (p : Packet) (s : State) : Host.Outcome State Fault Refusal := .next (s.onSegmentLoad p)

/-- BIAS_LOAD's effect (R164). -/
def State.onBiasLoad (p : Packet) (s : State) : State :=
  (s.takeLoad p 3 (loadFits p 27 4) (fun s' => s'.loadBias p)).arbitrate

/-- BIAS_LOAD (R22). -/
def execBiasLoad (p : Packet) (s : State) : Host.Outcome State Fault Refusal := .next (s.onBiasLoad p)

/-- MOUNT_LOAD's effect (R164). -/
def State.onMountLoad (p : Packet) (s : State) : State :=
  (s.takeLoad p 4 (loadFits p 3 2) (fun s' => s'.loadMount p)).arbitrate

/-- MOUNT_LOAD (R25). -/
def execMountLoad (p : Packet) (s : State) : Host.Outcome State Fault Refusal := .next (s.onMountLoad p)

/-- LENS_LOAD's effect (R164). -/
def State.onLensLoad (p : Packet) (s : State) : State :=
  (s.takeLoad p 5 (loadFits p 13 4) (fun s' => s'.loadLens p)).arbitrate

/-- LENS_LOAD (R33). -/
def execLensLoad (p : Packet) (s : State) : Host.Outcome State Fault Refusal := .next (s.onLensLoad p)

/-- MOTION_CFG_LOAD's effect (R164). -/
def State.onMotionCfgLoad (p : Packet) (s : State) : State :=
  (s.takeLoad p 6 (motionCfgFits p) (fun s' => s'.loadMotionCfg p)).arbitrate

/-- MOTION_CFG_LOAD (R14). -/
def execMotionCfgLoad (p : Packet) (s : State) : Host.Outcome State Fault Refusal := .next (s.onMotionCfgLoad p)

/-- CLIP_CFG_LOAD's effect (R164). -/
def State.onClipCfgLoad (p : Packet) (s : State) : State :=
  (s.takeLoad p 7 (loadFits p 11 4) (fun s' => s'.loadClipCfg p)).arbitrate

/-- CLIP_CFG_LOAD (R81). -/
def execClipCfgLoad (p : Packet) (s : State) : Host.Outcome State Fault Refusal := .next (s.onClipCfgLoad p)

/-- CHARGE_PROFILE_LOAD's effect (R164). -/
def State.onChargeProfileLoad (p : Packet) (s : State) : State :=
  (s.takeLoad p 8 (loadFits p 23 4) (fun s' => s'.loadChargeProfile p)).arbitrate

/-- CHARGE_PROFILE_LOAD (R125). -/
def execChargeProfileLoad (p : Packet) (s : State) : Host.Outcome State Fault Refusal := .next (s.onChargeProfileLoad p)

/-- OCV_LOAD's effect (R164). -/
def State.onOcvLoad (p : Packet) (s : State) : State :=
  (s.takeLoad p 9 (loadFits p 11 4) (fun s' => s'.loadOcv p)).arbitrate

/-- OCV_LOAD (R151). -/
def execOcvLoad (p : Packet) (s : State) : Host.Outcome State Fault Refusal := .next (s.onOcvLoad p)

/-- BUDGET_CFG_LOAD's effect (R164). -/
def State.onBudgetCfgLoad (p : Packet) (s : State) : State :=
  (s.takeLoad p 10 (loadFits p 9 4) (fun s' => s'.loadBudgetCfg p)).arbitrate

/-- BUDGET_CFG_LOAD (R145). -/
def execBudgetCfgLoad (p : Packet) (s : State) : Host.Outcome State Fault Refusal := .next (s.onBudgetCfgLoad p)

/-- TABLE_LOAD_OTHER's effect: a load that names no loadable table, or does not fit the one it names, is answered
BAD_TABLE (R164). -/
def State.onTableLoadOther (p : Packet) (s : State) : State :=
  (s.takeRequest p (p.isKind 3 && !fitsTable p) .tableLoad (fun s' => (s', answered .badTable))).arbitrate

/-- TABLE_LOAD_OTHER (R164). -/
def execTableLoadOther (p : Packet) (s : State) : Host.Outcome State Fault Refusal := .next (s.onTableLoadOther p)

/-- TABLE_READ's effect (R165). A payload, which section 10.1 gives the kind none of, is read past: DESIGN CHOICE
(notes/assumptions/33.md). -/
def State.onTableRead (p : Packet) (s : State) : State :=
  (s.takeRequest p (p.isKind 4) .tableRead (fun s' => s'.readTable p)).arbitrate

/-- TABLE_READ (R165). -/
def execTableRead (p : Packet) (s : State) : Host.Outcome State Fault Refusal := .next (s.onTableRead p)

end Sys2Proof.Machine
end

