-- ==== Sys2Proof/Machine/Dispatch.lean ====
section
/-! DEFINITION. The dispatch: one arm for each command of the table, each one call of its meaning. -/
namespace Sys2Proof.Machine

/-- The effect of a command on everything but the queue of waiting commands. -/
def exec (i : Instr) (s : State) : Host.Outcome State Fault Refusal :=
  match i with
  | .powerOn => Sys2Proof.Machine.execPowerOn s
  | .resetAssert => Sys2Proof.Machine.execResetAssert s
  | .resetRelease => Sys2Proof.Machine.execResetRelease s
  | .fsEdge => Sys2Proof.Machine.execFsEdge s
  | .drEdge => Sys2Proof.Machine.execDrEdge s
  | .lossDeadlineExpiry ch => Sys2Proof.Machine.execLossDeadlineExpiry ch s
  | .bandExpiry => Sys2Proof.Machine.execBandExpiry s
  | .initWriteDone => Sys2Proof.Machine.execInitWriteDone s
  | .settleExpiry => Sys2Proof.Machine.execSettleExpiry s
  | .readComplete bytes => Sys2Proof.Machine.execReadComplete bytes s
  | .mediaHeader h => Sys2Proof.Machine.execMediaHeader h s
  | .mediaPayloadComplete payload => Sys2Proof.Machine.execMediaPayloadComplete payload s
  | .latencyExpiry => Sys2Proof.Machine.execLatencyExpiry s
  | .malformedPacket h => Sys2Proof.Machine.execMalformedPacket h s
  | .clipStart p => Sys2Proof.Machine.execClipStart p s
  | .clipStop p => Sys2Proof.Machine.execClipStop p s
  | .flush p => Sys2Proof.Machine.execFlush p s
  | .segmentFree p => Sys2Proof.Machine.execSegmentFree p s
  | .segmentProtect p => Sys2Proof.Machine.execSegmentProtect p s
  | .segmentUnprotect p => Sys2Proof.Machine.execSegmentUnprotect p s
  | .motionStart p => Sys2Proof.Machine.execMotionStart p s
  | .motionStop p => Sys2Proof.Machine.execMotionStop p s
  | .chargeInhibit p => Sys2Proof.Machine.execChargeInhibit p s
  | .chargeAllow p => Sys2Proof.Machine.execChargeAllow p s
  | .chargeClear p => Sys2Proof.Machine.execChargeClear p s
  | .inputLimit p => Sys2Proof.Machine.execInputLimit p s
  | .cardRetry p => Sys2Proof.Machine.execCardRetry p s
  | .logClear p => Sys2Proof.Machine.execLogClear p s
  | .status p => Sys2Proof.Machine.execStatus p s
  | .park p => Sys2Proof.Machine.execPark p s
  | .restart p => Sys2Proof.Machine.execRestart p s
  | .unknownCommand p => Sys2Proof.Machine.execUnknownCommand p s
  | .windowLoad p => Sys2Proof.Machine.execWindowLoad p s
  | .segmentLoad p => Sys2Proof.Machine.execSegmentLoad p s
  | .biasLoad p => Sys2Proof.Machine.execBiasLoad p s
  | .mountLoad p => Sys2Proof.Machine.execMountLoad p s
  | .lensLoad p => Sys2Proof.Machine.execLensLoad p s
  | .motionCfgLoad p => Sys2Proof.Machine.execMotionCfgLoad p s
  | .clipCfgLoad p => Sys2Proof.Machine.execClipCfgLoad p s
  | .chargeProfileLoad p => Sys2Proof.Machine.execChargeProfileLoad p s
  | .ocvLoad p => Sys2Proof.Machine.execOcvLoad p s
  | .budgetCfgLoad p => Sys2Proof.Machine.execBudgetCfgLoad p s
  | .tableLoadOther p => Sys2Proof.Machine.execTableLoadOther p s
  | .tableRead p => Sys2Proof.Machine.execTableRead p s
  | .returnPacketSent => Sys2Proof.Machine.execReturnPacketSent s
  | .claimAssert => Sys2Proof.Machine.execClaimAssert s
  | .claimRelease => Sys2Proof.Machine.execClaimRelease s
  | .cdetChange card => Sys2Proof.Machine.execCdetChange card s
  | .cardInsertion => Sys2Proof.Machine.execCardInsertion s
  | .cardRemoval => Sys2Proof.Machine.execCardRemoval s
  | .identifyResponse capacity => Sys2Proof.Machine.execIdentifyResponse capacity s
  | .cardStatusResponse ready => Sys2Proof.Machine.execCardStatusResponse ready s
  | .wakeAck => Sys2Proof.Machine.execWakeAck s
  | .sleepAck => Sys2Proof.Machine.execSleepAck s
  | .enterRun => Sys2Proof.Machine.execEnterRun s
  | .openRunAck => Sys2Proof.Machine.execOpenRunAck s
  | .blockToken accepted => Sys2Proof.Machine.execBlockToken accepted s
  | .busyEnd programmed => Sys2Proof.Machine.execBusyEnd programmed s
  | .closeRunAck => Sys2Proof.Machine.execCloseRunAck s
  | .cardTimeout => Sys2Proof.Machine.execCardTimeout s
  | .busyTimeout => Sys2Proof.Machine.execBusyTimeout s
  | .shockHoldExpiry => Sys2Proof.Machine.execShockHoldExpiry s
  | .monitorUpdate conv => Sys2Proof.Machine.execMonitorUpdate conv s
  | .emergencyClose => Sys2Proof.Machine.execEmergencyClose s

end Sys2Proof.Machine
end

