-- ==== Sys2Proof/Machine/Tick.lean ====
section
/-! DEFINITION. What the block does of itself while no command waits: one microsecond of the ride clock passes (R1),
and the events that the spec sets at a clock value, or as events of their own after an update, join the queue
(notes/assumptions/5.md). While a pass of the monitor sequencer has ended and its conversions have not come, the clock
waits for them, so that every update is taken at its own time (notes/assumptions/34.md). -/
namespace Sys2Proof.Machine

/-- Whether a channel's loss deadline is reached (R5). -/
def State.lossReached (s : State) (ch : Channel) : Bool := reached s.now (s.capture.get ch).deadline

/-- Whether a change of CDET toward `level` has settled (R104). -/
def State.cdetSettled (s : State) (level : Bool) : Bool :=
  decide (s.pins.card = level) && decide (s.card.present = !level) && reached s.now s.card.settleDue

/-- A command waiting when `b` holds. -/
def commandIf (b : Bool) (c : Instr) : List Instr := if b then [c] else []

/-- Whether the answer or the busy in flight has run out of time, for a busy or for anything else (R103, R113). -/
def State.timeoutReached (s : State) (busy : Bool) : Bool :=
  match s.timedOut with
  | none => false
  | some (.busy _) => busy
  | some _ => !busy

/-- The events due at the clock value now (R5, R11, R16, R75, R104, R107, R113, R100, R120, R144). -/
def State.dueCommands (s : State) : List Instr :=
  commandIf (s.lossReached .fs) (.lossDeadlineExpiry .fs) ++
  commandIf (s.lossReached .dr) (.lossDeadlineExpiry .dr) ++
  commandIf s.bandReached .bandExpiry ++
  commandIf s.settleReached .settleExpiry ++
  commandIf s.latencyReached .latencyExpiry ++
  commandIf (reached s.now s.card.shockHold) .shockHoldExpiry ++
  commandIf (s.cdetSettled true) .cardInsertion ++
  commandIf (s.cdetSettled false) .cardRemoval ++
  commandIf (s.timeoutReached false) .cardTimeout ++
  commandIf (s.timeoutReached true) .busyTimeout ++
  commandIf s.runGranted .enterRun ++
  commandIf s.budget.orderPending .emergencyClose

/-- One microsecond of the ride clock (R1). -/
def State.advanceClock (s : State) : State :=
  { s with capture := { s.capture with clock := s.capture.clock + 1 } }

/-- One microsecond passed and the events then due waiting. -/
def State.advance (s : State) : State :=
  let s1 := s.advanceClock
  { s1 with pending := s1.dueCommands }

/-- The part's own step while no command waits. -/
def State.tick (s : State) : State := if s.passEnded then s else s.advance

end Sys2Proof.Machine
end

