-- ==== Sys2Proof/WellFormed.lean ====
section
/-! DEFINITION. Which commands can cross the part's boundary at all: the packet kinds, command codes, table codes
and lengths of Chapter 11, the 14 bytes of a sample read. `exec` is defined on every term; a packet row acts only on a
packet whose codes select it (notes/assumptions/21.md). -/
namespace Sys2Proof

/-- The well-formed commands. A load that names a table but does not fit it is a well-formed command of that
table's row and of TABLE_LOAD_OTHER alike: both answer it BAD_TABLE (R164). -/
def Instr.wf : Instr → Bool
  | .powerOn | .resetAssert | .resetRelease | .fsEdge | .drEdge | .lossDeadlineExpiry _ | .bandExpiry
  | .initWriteDone | .settleExpiry | .latencyExpiry | .returnPacketSent | .claimAssert | .claimRelease
  | .cdetChange _ | .cardInsertion | .cardRemoval | .identifyResponse _ | .cardStatusResponse _ | .wakeAck
  | .sleepAck | .enterRun | .openRunAck | .blockToken _ | .busyEnd _ | .closeRunAck | .cardTimeout
  | .busyTimeout | .shockHoldExpiry | .monitorUpdate _ | .emergencyClose => true
  | .readComplete bytes => decide (bytes.length = 14)
  | .mediaHeader h => !h.isMalformed && decide (h.kindCode = 1)
  | .mediaPayloadComplete payload => decide (1 ≤ payload.length) && decide (payload.length ≤ 65520)
  | .malformedPacket h => h.isMalformed
  | .clipStart p => p.isCommand 1
  | .clipStop p => p.isCommand 2
  | .flush p => p.isCommand 3
  | .segmentFree p => p.isCommand 4
  | .segmentProtect p => p.isCommand 5
  | .segmentUnprotect p => p.isCommand 6
  | .motionStart p => p.isCommand 7
  | .motionStop p => p.isCommand 8
  | .chargeInhibit p => p.isCommand 9
  | .chargeAllow p => p.isCommand 10
  | .chargeClear p => p.isCommand 11
  | .inputLimit p => p.isCommand 12
  | .cardRetry p => p.isCommand 13
  | .logClear p => p.isCommand 14
  | .status p => p.isCommand 15
  | .park p => p.isCommand 16
  | .restart p => p.isCommand 17
  | .unknownCommand p => p.isUnknown
  | .windowLoad p => p.isLoad 1
  | .segmentLoad p => p.isLoad 2
  | .biasLoad p => p.isLoad 3
  | .mountLoad p => p.isLoad 4
  | .lensLoad p => p.isLoad 5
  | .motionCfgLoad p => p.isLoad 6
  | .clipCfgLoad p => p.isLoad 7
  | .chargeProfileLoad p => p.isLoad 8
  | .ocvLoad p => p.isLoad 9
  | .budgetCfgLoad p => p.isLoad 10
  | .tableLoadOther p => p.isKind 3 && !Machine.fitsTable p
  | .tableRead p => p.isKind 4

end Sys2Proof
end

