-- ==== Sys2Proof/Safety.lean ====
section
/-! DEFINITION. What the statements about the machine are said in: which requests are executed, and the invariants that
every step keeps. -/
namespace Sys2Proof.Machine

/-! ### Requests -/

/-- A request row is executed when it comes: the parser takes packets, the row's packet is a whole one whose codes select
it, and fewer than eight requests are outstanding (R157, R158, R159, R170, R174). -/
def State.executes (s : State) (c : Instr) : Prop :=
  s.listening = true ∧ c.wf = true ∧ s.link.outstanding.length < 8

/-- The state once a request has been executed: the parser at the next header, the park flag clear, the answer at the
tail of the outstanding list (R157, R159, R169). The given function is the execution's effect. -/
def State.served (s : State) (p : Packet) (kind : RequestKind) (effect : State → State) (answer : Answer) : State :=
  (effect s.received).join p.header.b1 kind answer

/-! ### The chunk buffer -/

/-- Each of the 384 pages is either free or held by exactly one descriptor (R60). -/
def ChunkBuffer.PagesKept (b : ChunkBuffer) : Prop :=
  List.Perm (b.free ++ b.queue.flatMap Chunk.pages) (List.range 384)

/-- Accepted chunks are written, queued or discarded, each count modulo 2^32 (R72). -/
def ChunkBuffer.Balanced (b : ChunkBuffer) : Prop :=
  b.accepted = b.written + BitVec.ofNat 32 b.queue.length + b.discarded

/-- The queue holds at most 256 descriptors, HOLD is asserted exactly while the buffer is short of room, and the page
memory is in its canonical form (R62, R68). -/
def ChunkBuffer.Bounded (b : ChunkBuffer) : Prop :=
  b.queue.length ≤ 256 ∧ b.hold = b.short ∧ ramWf b.ram = true

/-! ### The clip recorder -/

/-- At most one segment is FILLING, the one being filled, and only while a clip is open (R90). -/
def ClipRecorder.OneFilling (c : ClipRecorder) : Prop :=
  (∀ i, (c.slot i).state = .filling → c.filling.map Filling.slot = some i) ∧
  (c.filling.isSome → c.state.isOpen = true)

/-- With no clip open no chunk is queued, and the motion chunk accumulator is open only while a clip is being recorded
(R53, R99, R101). -/
def State.ClipAtRest (s : State) : Prop :=
  (s.clip.state = .idle → s.buffer.queue = []) ∧
  (s.frame.accOpen = true → s.clip.state = .recording ∨ s.clip.state = .rolloverWait)

/-- Slot i is the first that a search tries among the slots other than `exclude`: the first FREE one in slot order, or in
LOOP, with no slot FREE, the unprotected CLOSED one with the lowest close sequence (R91). -/
def ClipRecorder.Chosen (c : ClipRecorder) (mode : ClipMode) (exclude : Option Nat) (i : Nat) : Prop :=
  i < 64 ∧ some i ≠ exclude ∧
  ((c.slot i).state = .free ∧ (∀ j, j < i → some j ≠ exclude → (c.slot j).state ≠ .free) ∨
   mode = .loop ∧ (∀ j, some j ≠ exclude → (c.slot j).state ≠ .free) ∧
    (c.slot i).state = .closed ∧ (c.slot i).prot = none ∧
    ∀ j, some j ≠ exclude → j ≠ i → (c.slot j).state = .closed → (c.slot j).prot = none →
      ((c.slot i).closeSeq.getD 0).toNat < ((c.slot j).closeSeq.getD 0).toNat)

/-- A search among the slots other than `exclude` has no slot to try: none is FREE, and in LOOP none is CLOSED and
unprotected either (R91). -/
def ClipRecorder.NoSlot (c : ClipRecorder) (mode : ClipMode) (exclude : Option Nat) : Prop :=
  ∀ i, some i ≠ exclude → (c.slot i).state ≠ .free ∧
    (mode = .linear ∨ (c.slot i).state ≠ .closed ∨ (c.slot i).prot ≠ none)

/-- The number of protected segments does not exceed the protect limit in force (R87). -/
def ClipRecorder.WithinLimit (c : ClipRecorder) : Prop := c.protectedCount ≤ c.cfg.protectLimit

/-! ### The card controller -/

/-- The card is in RUN only while a burst grant is held (R106). -/
def State.RunGranted (s : State) : Prop := s.card.state = .run → s.budget.grant = .held

/-- The bad-granule list, the error log and the suppression set keep to their sizes (R112, R116, R117). -/
def CardController.Bounded (c : CardController) : Prop :=
  c.badList.length ≤ 32 ∧ c.log.length ≤ 32 ∧ c.suppressed.length ≤ 64

/-! ### Charging -/

/-- The profile fields that are currents or steps are not negative (section 8.2). -/
def ChargeProfile.NonNegative (p : ChargeProfile) : Prop :=
  0 ≤ p.coolCurrent ∧ 0 ≤ p.normalCurrent ∧ 0 ≤ p.warmCurrent ∧ 0 ≤ p.preCurrent ∧ 0 ≤ p.rampStep ∧ 0 ≤ p.backOff

/-- The setpoint lies under the ceiling of the stage and zone in force, which is the one handed over (R141). -/
def State.SetpointBounded (s : State) : Prop :=
  s.charge.profile.NonNegative ∧ s.charge.ceiling = s.charge.stageCeiling ∧
  0 ≤ s.budget.setpoint ∧ s.budget.setpoint ≤ s.charge.stageCeiling

/-! ### The link -/

/-- At most eight requests outstanding, at most one notice entry of each kind, at most eight records on the send list
(R51, R159, R166). -/
def State.LinkBounded (s : State) : Prop :=
  s.link.outstanding.length ≤ 8 ∧ (s.link.notices.map (fun e => e.notice.kind)).Nodup ∧
  (∀ e ∈ s.link.notices, 1 ≤ e.count ∧ e.count ≤ 65535) ∧ s.frame.sendList.length ≤ 8

end Sys2Proof.Machine
end

