-- ==== Sys2Proof/Certificates/Slice0/Obligations.lean ====
section
/-! DEFINITION. The statements for the provers. Each says of a command what its effect is, with everything else of the
state left as it was, or of every step what it keeps. An effect that ends in `conclude` or `arbitrate` is followed by
the standing work that section 5.9, Chapters 6 and 7 and R167 give; what that work is and what it leaves is stated in
`ArbiterChooses` and `ConcludeLeaves`. A request is executed where `State.executes` holds of its row; what becomes of any
other is stated in `RequestsTurnedAway`. -/

open Sys2Proof Sys2Proof.Machine

/-! ### The machine -/

/-- A command at the front of the queue is executed with the queue's rest. -/
def Obligations.StepRunsFront : Prop :=
  ∀ (s : State) (c : Instr) (rest : List Instr), s.pending = c :: rest → step s = exec c { s with pending := rest }

/-- With no command waiting a step is one microsecond of the ride clock, after which exactly the events due then wait;
nothing else changes. While a monitor update is due the clock waits for it. That the block's own events wait in the
queue, and that the clock waits for the conversions of a pass, is the model's choice (notes/assumptions/5.md,
notes/assumptions/34.md). -/
def Obligations.IdleStepTicks : Prop :=
  ∀ s : State, s.pending = [] →
    (atOrAfter s.now s.budget.passDue = true → step s = .next s) ∧
    (atOrAfter s.now s.budget.passDue = false → ∃ t, step s = .next t ∧
      t = { s with capture := { s.capture with clock := s.capture.clock + 1 }, pending := t.dueCommands } ∧
      (∀ ch, .lossDeadlineExpiry ch ∈ t.pending ↔ t.lossReached ch = true) ∧
      (.bandExpiry ∈ t.pending ↔ t.bandReached = true) ∧ (.settleExpiry ∈ t.pending ↔ t.settleReached = true) ∧
      (.latencyExpiry ∈ t.pending ↔ t.latencyReached = true) ∧
      (.shockHoldExpiry ∈ t.pending ↔ reached t.now t.card.shockHold = true) ∧
      (.cardInsertion ∈ t.pending ↔ t.cdetSettled true = true) ∧
      (.cardRemoval ∈ t.pending ↔ t.cdetSettled false = true) ∧
      (.cardTimeout ∈ t.pending ↔ t.timeoutReached false = true) ∧
      (.busyTimeout ∈ t.pending ↔ t.timeoutReached true = true) ∧
      (.enterRun ∈ t.pending ↔ t.runGranted = true) ∧ (.emergencyClose ∈ t.pending ↔ t.budget.orderPending = true) ∧
      t.pending.Nodup ∧
      ∀ c ∈ t.pending, (∃ ch, c = .lossDeadlineExpiry ch) ∨ c ∈ [Instr.bandExpiry, .settleExpiry, .latencyExpiry,
        .shockHoldExpiry, .cardInsertion, .cardRemoval, .cardTimeout, .busyTimeout, .enterRun, .emergencyClose])

/-- Every command is executed in every state: none stops the part. For an event that the spec gives work it is the
spec's own effect; that an event which matches nothing the part is doing answers a next state as well is the model's
choice (notes/assumptions/7.md). -/
def Obligations.NoCommandStops : Prop := ∀ (c : Instr) (s : State), ∃ t, exec c s = .next t

/-- What an event's end does and leaves. It leaves everything but the clip column, the notices, the packets that wait
to be sent, and the grant between NONE and PENDING. Its standing work (`settleClip`) is taken piece by piece: each
piece makes a state with the same outcome of that work and the same end of the event. The next chunk, once not
RECEIVING, is judged: past the threshold RECORDING becomes ROLLOVER_WAIT, in which a keyframe begins a rollover with
the last chunk placed as the flush mark; a chunk that fits is placed, with the filler after it where it is the flush
mark, in CLOSING whatever the threshold and in EMERGENCY up to the emergency limit, past which it and all after it are
discarded and the stream ended; one that does not fit begins a FORCED rollover with ROLLOVER_FORCED, or with no chunk
placed makes the slot UNUSABLE. A segment with a close pending whose last placed chunk has left closes with its
reason, and the clip goes on in the slot found, the first FREE one or in LOOP the unprotected CLOSED one with the
lowest close sequence; one with no usable block becomes UNUSABLE; with no slot the segment closes RING_FULL, or
DAMAGED as it was, the queue is discarded and the clip ends. With the queue empty CLOSING ends STOP and EMERGENCY ends
EMERGENCY. After it HOLD stands exactly while fewer than 18 pages or 2 descriptors are free, the latency deadline
follows the earliest arrival, and a grant is asked for exactly while card and queue are ready (R68, R75, R76, R77,
R84, R91, R92, R93, R94, R95, R99, R100, R106, R167). Inferred from the spec: the work falls inside the event that
brings it about (notes/assumptions/9.md); after an UNUSABLE slot the clip goes on in RECORDING
(notes/assumptions/15.md); the stream length of a DAMAGED close (notes/assumptions/16.md). The model's choice: that
length in EMERGENCY (notes/assumptions/35.md); the slots searched after an UNUSABLE one (notes/assumptions/38.md); no
grant with `bus` busy (notes/assumptions/10.md); the order of freed pages (notes/assumptions/29.md). -/
def Obligations.ConcludeLeaves : Prop :=
  ∀ s : State, ∃ t, t = s.conclude ∧
    t = { s with
      frame := { s.frame with sendList := t.frame.sendList, accOpen := t.frame.accOpen, acc := t.frame.acc }
      buffer := t.buffer
      clip := { t.clip with cfg := s.clip.cfg, window := s.clip.window, protectRefused := s.clip.protectRefused }
      budget := { s.budget with grant := t.budget.grant }
      link := { s.link with
        outstanding := t.link.outstanding, notices := t.link.notices, sending := t.link.sending } } ∧
    (t.buffer.hold = true ↔ t.buffer.free.length < 18 ∨ 256 - t.buffer.queue.length < 2) ∧
    t.buffer.latDeadline = (earliestArrival t.buffer.queue).map (fun a => later a (1000 * s.clip.cfg.latencyMs)) ∧
    (s.budget.grant = .held → t.budget.grant = .held) ∧
    (s.budget.grant ≠ .held → t.budget.grant ≠ .held ∧ (t.budget.grant = .pending ↔
      (s.card.state = .ready ∨ s.card.state = .sleep) ∧ s.card.bus = none ∧
      t.buffer.runDue s.clip.cfg.batchKiB = true ∧ s.card.shockHold = none ∧
      ∃ f, t.clip.filling = some f ∧ 1 ≤ f.placement / 512 - f.front)) ∧
    (s.clip.state = .idle → t.clip = s.clip ∧ t.buffer.queue = s.buffer.queue ∧ t.frame.acc = s.frame.acc) ∧
    -- the last chunk of the queue: placed, or the start of a rollover
    (∀ (f : Filling) (q : List Chunk) (c : Chunk), s.clip.filling = some f → f.pending = none → f.slot < 64 →
      (s.clip.state = .recording ∨ s.clip.state = .rolloverWait) → s.buffer.queue = q ++ [c] →
      (∀ d ∈ q, d.place ≠ none ∧ d.seq ≠ c.seq) → c.state = .ready → c.place = none → s.buffer.flush = none →
      let past := (f.contrib.sum - s.clip.cfg.allowance) * 512 ≤ f.placement
      let waits := s.clip.state = .rolloverWait ∨ past
      (¬(waits ∧ c.kind = .video ∧ c.key = true ∧ f.anyPlaced = true) →
        f.placement + (16 + c.length) ≤ f.contrib.sum * 512 →
        t.buffer.queue = q ++ [{ c with state := .placed, place := some f.placement, acked := 0 }] ∧
        t.clip = { s.clip with
          state := if past then .rolloverWait else s.clip.state
          filling := some { f with placement := f.placement + (16 + c.length), anyPlaced := true }
          slots := if f.anyPlaced then s.clip.slots else s.clip.slots.setIfInBounds f.slot
            { s.clip.slot f.slot with firstSeq := some c.seq } }) ∧
      (waits → c.kind = .video → c.key = true → f.anyPlaced = true → ∀ p d, q = p ++ [d] →
        t.buffer.queue = s.buffer.queue ∧ t.buffer.flush = some d.seq ∧
        t.clip = { s.clip with
          state := .rolloverWait
          filling := some { f with
            pending := some .rollover
            placement := (f.placement + 511) / 512 * 512
            fillers := if f.placement % 512 = 0 then f.fillers else f.fillers ++ [f.placement] } })) ∧
    -- the close of a drained segment
    (∀ (f : Filling) (cause : CloseCause) (i : Nat), s.clip.filling = some f → f.pending = some cause →
      f.slot < 64 → (s.clip.state = .recording ∨ s.clip.state = .rolloverWait) →
      (∀ c ∈ s.buffer.queue, c.place = none ∧ c.state = .receiving) → i < 64 → i ≠ f.slot →
      (s.clip.slot i).state = .free → (∀ j, j < i → j ≠ f.slot → (s.clip.slot j).state ≠ .free) →
      (s.contributions i).sum ≠ 0 →
      t.buffer.queue = s.buffer.queue ∧
      t.clip = { s.clip with
        state := .recording, closeCounter := s.clip.closeCounter + 1
        slots := (s.clip.slots.setIfInBounds f.slot { s.clip.slot f.slot with
          state := .closed, endTime := some s.now, closeSeq := some (s.clip.closeCounter + 1)
          streamLen := if cause = .damaged then f.damagedAt.getD f.placement else f.placement
          endReason := some (match cause with
            | .rollover => .rollover | .forced => .forced | .damaged => .damaged) }).setIfInBounds i
          { s.clip.slot i with
            state := .filling, clip := some s.clip.clipNumber, startTime := some s.now, firstSeq := none,
            lastSeq := none, endTime := none, closeSeq := none, endReason := none, streamLen := 0, skips := [],
            shocks := 0 }
        filling := some { slot := i, placement := 0, front := 0, pending := none, anyPlaced := false, limit := 0,
                          contrib := s.contributions i, fillers := [], damagedAt := none } }) ∧
    -- nothing to do: every chunk up to the first RECEIVING one placed, no segment drained, no close at its end
    ((∀ f, s.clip.filling = some f → f.pending ≠ none →
        s.clip.state = .emergency ∨ ∃ c ∈ s.buffer.queue, c.place ≠ none) →
      (∀ f q c rest, s.clip.filling = some f → f.pending = none → s.buffer.queue = q ++ c :: rest →
        (∀ d ∈ q, d.place ≠ none) → c.place = none → c.state = .receiving) →
      (s.buffer.queue = [] → s.clip.state ≠ .closing ∧ s.clip.state ≠ .emergency) →
      s.settleClip = s ∧ t.clip = s.clip ∧ t.frame = { s.frame with sendList := t.frame.sendList } ∧
      t.buffer = { s.buffer with hold := t.buffer.hold, latDeadline := t.buffer.latDeadline
                                 latExpired := t.buffer.latExpired }) ∧
    -- otherwise its next piece, with the rest of the work after it
    (∀ f : Filling, s.clip.filling = some f → f.slot < 64 →
      let goesOn := fun (u : State) => s.settleClip = u.settleClip ∧ t = u.conclude
      let x := s.clip.slot f.slot
      let close := fun (w : State) (reason : EndReason) => State.raise { w with clip := { w.clip with
        closeCounter := s.clip.closeCounter + 1, filling := none
        slots := w.clip.slots.setIfInBounds f.slot { x with
          state := .closed, endTime := some s.now, closeSeq := some (s.clip.closeCounter + 1)
          streamLen := if reason = .damaged then f.damagedAt.getD f.placement else f.placement
          endReason := some reason } } } (.segmentClosed f.slot reason (s.clip.closeCounter + 1))
      let take := fun (w : State) (i : Nat) => ({ w with clip := { w.clip with
        state := if w.clip.state = .closing then .closing else .recording
        filling := some { slot := i, placement := 0, front := 0, pending := none, anyPlaced := false, limit := 0,
                          contrib := s.contributions i, fillers := [], damagedAt := none }
        slots := w.clip.slots.setIfInBounds i { s.clip.slot i with
          state := .filling, clip := some s.clip.clipNumber, startTime := some s.now, firstSeq := none, lastSeq := none
          endTime := none, closeSeq := none, endReason := none, streamLen := 0, skips := [], shocks := 0 } } } : State)
      let unusable := fun (w : State) (i : Nat) => ({ w with clip := { w.clip with
        slots := w.clip.slots.setIfInBounds i { s.clip.slot i with
          state := .unusable, clip := none, firstSeq := none, lastSeq := none, startTime := none, endTime := none
          closeSeq := none, endReason := none } } } : State)
      let endWith := fun (w : State) (reason : ClipEnd) => State.raise { w with clip := { w.clip with
        state := .idle, filling := none } } (.clipEnded s.clip.clipNumber reason)
      let ringFull := fun (w : State) => endWith { w with
        buffer := { s.buffer with
          queue := [], flush := none, free := s.buffer.free ++ s.buffer.queue.flatMap Chunk.pages
          discarded := s.buffer.discarded + BitVec.ofNat 32 s.buffer.queue.length }
        frame := { s.frame with accOpen := false, acc := [] } } .ringFull
      let chosen := s.clip.Chosen s.clip.mode (some f.slot)
      let noSlot := s.clip.NoSlot s.clip.mode (some f.slot)
      -- a segment that has drained closes, and the clip goes on in the slot found or ends
      (∀ cause, f.pending = some cause → s.clip.state ≠ .idle → s.clip.state ≠ .emergency →
        (∀ c ∈ s.buffer.queue, c.place = none) →
        (∀ i, chosen i → (s.contributions i).sum = 0 → goesOn (unusable s i)) ∧
        (∀ i, chosen i → (s.contributions i).sum ≠ 0 → goesOn (take (close s (match cause with
          | .rollover => .rollover | .forced => .forced | .damaged => .damaged)) i)) ∧
        (noSlot → goesOn (ringFull (close s (if cause = .damaged then .damaged else .ringFull))))) ∧
      -- the end of a close with nothing left to write
      (s.buffer.queue = [] →
        (s.clip.state = .closing → f.pending = none → goesOn (endWith (close s .stop) .stop)) ∧
        (s.clip.state = .emergency → goesOn (endWith
          (close s (if f.pending = some .damaged then .damaged else .emergency)) .emergency))) ∧
      -- the judgement of the next chunk
      (∀ q c rest, s.buffer.queue = q ++ c :: rest → (∀ d ∈ q, d.place ≠ none) → (∀ d ∈ q ++ rest, d.seq ≠ c.seq) →
        c.place = none → c.state ≠ .receiving → f.pending = none → s.clip.state ≠ .idle →
        let past := (f.contrib.sum - s.clip.cfg.allowance) * 512 ≤ f.placement
        let w : State := { s with clip := { s.clip with
          state := if s.clip.state = .recording ∧ past then .rolloverWait else s.clip.state } }
        let stop := f.placement + (16 + c.length)
        let fits := stop ≤ f.contrib.sum * 512
        let turns := w.clip.state = .rolloverWait ∧ c.kind = .video ∧ c.key = true ∧ f.anyPlaced = true
        let place : State := { w with
          buffer := { s.buffer with
            queue := q ++ { c with state := .placed, place := some f.placement, acked := 0 } :: rest }
          clip := { w.clip with
            filling := some { f with
              placement := if s.buffer.flush = some c.seq then (stop + 511) / 512 * 512 else stop
              fillers := if s.buffer.flush = some c.seq ∧ stop % 512 ≠ 0 then f.fillers ++ [stop] else f.fillers
              anyPlaced := true }
            slots := if f.anyPlaced then s.clip.slots else s.clip.slots.setIfInBounds f.slot
              { x with firstSeq := some c.seq } } }
        let rollOver := fun (w : State) (cause : CloseCause) => ({ w with
          buffer := { s.buffer with flush := match (s.buffer.queue.filter (fun d => d.place.isSome)).getLast? with
            | none => s.buffer.flush
            | some d => some (match s.buffer.flush with
              | none => d.seq
              | some m => if m ∈ (s.buffer.queue.takeWhile (fun e => decide (e.seq ≠ d.seq))).map Chunk.seq then d.seq
                else m) }
          clip := { w.clip with filling := some { f with
            pending := some cause
            placement := (f.placement + 511) / 512 * 512
            fillers := if f.placement % 512 = 0 then f.fillers else f.fillers ++ [f.placement] } } } : State)
        (s.clip.state ≠ .emergency →
          (turns → goesOn (rollOver w .rollover)) ∧
          (¬turns → fits → goesOn place) ∧
          (¬turns → ¬fits → f.anyPlaced = true →
            goesOn (rollOver (w.raise (.rolloverForced f.slot c.seq)) .forced)) ∧
          (¬turns → ¬fits → f.anyPlaced = false →
            let marked := State.raise { w with clip := { w.clip with
              slots := s.clip.slots.setIfInBounds f.slot { x with
                state := .unusable, prot := none, clip := none, firstSeq := none, lastSeq := none, startTime := none
                endTime := none, closeSeq := none, endReason := none } } } (.rolloverForced f.slot c.seq)
            (∀ i, chosen i → (s.contributions i).sum = 0 → goesOn (unusable s i)) ∧
            (∀ i, chosen i → (s.contributions i).sum ≠ 0 → goesOn (take marked i)) ∧
            (noSlot → goesOn (ringFull marked)))) ∧
        (s.clip.state = .emergency →
          (fits → stop ≤ f.limit → goesOn place) ∧
          (¬(fits ∧ stop ≤ f.limit) →
            let pos := match q.getLast? with
              | some d => d.place.getD 0 + (16 + d.length)
              | none => x.streamLen
            let filled := f.front ≤ pos / 512 ∧ pos % 512 ≠ 0
            let kept := f.fillers.filter (fun st => decide (st < pos))
            goesOn { s with
              buffer := { s.buffer with
                queue := q, free := s.buffer.free ++ (c :: rest).flatMap Chunk.pages
                discarded := s.buffer.discarded + BitVec.ofNat 32 (rest.length + 1)
                flush := s.buffer.flush.filter (fun m => decide (m ∈ q.map Chunk.seq)) }
              clip := { s.clip with
                filling := some { f with
                  placement := if filled then (pos / 512 + 1) * 512 else pos
                  fillers := if filled then kept ++ [pos] else kept
                  anyPlaced := f.anyPlaced && decide (pos ≠ 0) }
                slots := if pos = 0 then s.clip.slots.setIfInBounds f.slot { x with firstSeq := none }
                  else s.clip.slots } }))))

/-- RETURN_PACKET_SENT with RESET released: the head record of the send list leaves first, then a ready answer at the
head of the outstanding list, then the head of the notice set, and otherwise the direction stays free (R167). -/
def Obligations.ArbiterChooses : Prop :=
  ∀ s : State, s.pins.reset = false → ∃ t, exec .returnPacketSent s = .next t ∧
    (∀ r rs, s.frame.sendList = r :: rs →
      t = { s with frame := { s.frame with sendList := rs }, link := { s.link with sending := some (motionPacket r) } }) ∧
    (s.frame.sendList = [] →
      (∀ r rs code data, s.link.outstanding = r :: rs → r.answer = .ready code data →
        t = { s with link := { s.link with
          outstanding := rs, sending := some (answerPacket r.tag code data) } }) ∧
      ((∀ r rs, s.link.outstanding = r :: rs → r.answer = .awaitStart ∨ r.answer = .awaitStop) →
        (∀ e es, s.link.notices = e :: es →
          t = { s with link := { s.link with notices := es, sending := some (noticePacket e) } }) ∧
        (s.link.notices = [] → t = { s with link := { s.link with sending := none } })))

/-! ### Power-on and host reset -/

/-- POWER_ON puts every block in its power-on condition: the clock from 0, the card by CLAIM and CDET, with IDENTIFY
sent where it is in INIT, presence at once from CDET, the counts 0, and no notice but the CARD_TAKEN of a power-on
into YIELDED, which is on its way at once where RESET is released (R1, R3, R20, R52, R79, R102, R123, R142, R143,
R156, R157, R172). Among the values of the `.reset` records the charge and the effective limit before the first
update, the setpoint in force, the extents of EMPTY slots, the clip number and the mode are the model's choice
(notes/assumptions/1.md), and so is what an unwritten byte of a page reads as (notes/assumptions/2.md). -/
def Obligations.PowerOnConditions : Prop :=
  ∀ s : State, ∃ t, exec .powerOn s = .next t ∧
    t.capture = .reset ∧ t.imu = .reset ∧ t.motion = .reset ∧ t.frame = .reset ∧ t.buffer = .reset ∧
    t.clip = .reset ∧ t.charge = .reset ∧ t.budget = .reset ∧ t.pins = s.pins ∧ t.pending = s.pending ∧
    (let taken : NoticeEntry := ⟨1, .cardTaken .absent 0⟩
     t.link = { Link.reset with
       notices := if s.pins.claim = true ∧ s.pins.reset = true then [taken] else []
       sending := if s.pins.claim = true ∧ s.pins.reset = false then some (noticePacket taken) else none }) ∧
    t.link.parser = .header ∧ t.link.parked = false ∧ t.link.outstanding = [] ∧ t.link.overruns = 0 ∧
    t.card.present = s.pins.card ∧ t.card.badList = [] ∧ t.card.log = [] ∧ t.card.suppressed = [] ∧
    t.card.capacity = 0 ∧ t.card.recovery = 0 ∧ t.card.shockHold = none ∧ t.card.corrected = 0 ∧
    t.card.overflow = 0 ∧ t.card.logSeq = 0 ∧ t.card.run = none ∧ t.card.settleDue = none ∧
    t.card.state = (if s.pins.claim then .yielded else if s.pins.card then .init else .absent) ∧
    (s.pins.claim = false → s.pins.card = true → t.card.bus = some ⟨.identify, 50000⟩ ∧
      t.card.ident = some { origin := .powerOn, attempt := 1, capacity := none }) ∧
    (s.pins.claim = true ∨ s.pins.card = false → t.card.bus = none ∧ t.card.ident = none)

/-- A host reset by either way, the RESET line or RESTART taken whole: the same state but for the line itself. The
ride clock runs on; the motion side, the frame builder, the chunk buffer, the link and the notices are cleared; the
tables, the window, the card's lists, the charger and the gauge are kept. A card present and not claimed is identified
afresh: the INIT sends IDENTIFY, or WAKE first to a card that was in SLEEP (R1, R3, R20, R52, R79, R102, R105, R123,
R142, R149, R157, R171, R172). That an order not yet taken goes with the clip (`orderPending`) is the model's choice
(notes/assumptions/14.md), and so are the bytes of the pages, which stay (notes/assumptions/2.md). Whether an INIT
that is started again keeps its origin is left open (notes/assumptions/3.md). That a SLEEP with a grant already given
counts as a run is read from the spec by inference (notes/assumptions/36.md). -/
def Obligations.HostReset : Prop :=
  ∀ s : State, s.pins.reset = false → ∃ t,
    exec .resetAssert s = .next t ∧
    (∀ p : Packet, s.listening = true → (Instr.restart p).wf = true → p.payload = [] →
      exec (.restart p) s = .next { t with pins := s.pins }) ∧
    t.pins = { s.pins with reset := true } ∧ t.pending = s.pending ∧
    t.capture = { CaptureUnit.reset with clock := s.capture.clock } ∧
    t.imu = { ImuPort.reset with cfg := s.imu.cfg } ∧
    t.motion = { MotionComputer.reset with
      bias := ⟨s.motion.bias.active, none⟩, mount := ⟨s.motion.mount.active, none⟩,
      lens := ⟨s.motion.lens.active, none⟩ } ∧
    t.frame = .reset ∧ t.buffer = { ChunkBuffer.reset with ram := s.buffer.ram } ∧
    t.link = { Link.reset with overruns := s.link.overruns } ∧ t.charge = s.charge ∧
    t.budget = { s.budget with grant := .none, lowRun := 0, lowState := false, orderPending := false } ∧
    t.clip.state = .idle ∧ t.clip.filling = none ∧ t.clip.protectRefused = 0 ∧ t.clip.cfg = s.clip.cfg ∧
    t.clip.window = s.clip.window ∧
    (∀ f, s.clip.filling = some f → t.clip.closeCounter = s.clip.closeCounter + 1 ∧
      t.clip.slots = s.clip.slots.setIfInBounds f.slot { s.clip.slot f.slot with
        state := .interrupted, endTime := some s.now, closeSeq := some (s.clip.closeCounter + 1) }) ∧
    (s.clip.filling = none → t.clip.closeCounter = s.clip.closeCounter ∧ t.clip.slots = s.clip.slots) ∧
    t.card.state = (if s.pins.claim then .yielded else if s.card.present then .init else .absent) ∧
    (s.pins.claim = true ∨ s.card.present = false → t.card.bus = none ∧ t.card.ident = none) ∧
    (s.pins.claim = false → s.card.present = true →
      t.card.bus = some (if s.card.state = .sleep ∧ s.runGranted = false then ⟨.wake, later s.now 5000⟩
        else ⟨.identify, later s.now 50000⟩) ∧
      ∃ origin, t.card.ident = some { origin := origin, attempt := 1, capacity := none } ∧
        (s.card.state ≠ .init → origin = .hostReset) ∧
        (∀ i, s.card.state = .init → s.card.ident = some i → origin = i.origin ∨ origin = .hostReset)) ∧
    t.card.run = none ∧ t.card.shockHold = none ∧ t.card.capacity = s.card.capacity ∧
    t.card.present = s.card.present ∧ t.card.badList = s.card.badList ∧ t.card.log = s.card.log ∧
    t.card.logSeq = s.card.logSeq ∧ t.card.suppressed = s.card.suppressed ∧ t.card.corrected = s.card.corrected ∧
    t.card.overflow = s.card.overflow ∧ t.card.settleDue = s.card.settleDue

/-! ### Chapter 1: ride clock, capture, bands -/

/-- Ride clock comparison across the wrap: for a distance below 2^39 the later value is at or after the earlier one
and their difference is that distance; for a distance of 1 to 2^39 the earlier value is before the later one, and
their difference is invalid (R1). -/
def Obligations.ClockComparison : Prop :=
  ∀ (t : Time) (u : Nat),
    (u < 2 ^ 39 → atOrAfter (later t u) t = true ∧ validDiff (later t u) t = some u) ∧
    (1 ≤ u → u ≤ 2 ^ 39 → atOrAfter t (later t u) = false ∧ validDiff t (later t u) = none)

/-- DR_EDGE: ignored in PARK; otherwise the record is stamped and the port starts a read from IDLE or counts an
overrun in READING; the read sends the sample address with its top bit set. With motion active the edge is judged
against the IMU period and sets the loss deadline again: three steady intervals in LOST lock the channel, which raises
CADENCE, and only that does; an unsteady one clears the run, LOCKED stays, and the first edge of a session has no
interval (R2, R5, R6, R8, R15, R18, R19). -/
def Obligations.DrEdge : Prop :=
  ∀ s : State, ∃ t, exec .drEdge s = .next t ∧ (s.link.parked = true → t = s) ∧
    (s.link.parked = false →
      t.capture = { s.capture with dr := t.capture.dr } ∧
      t.capture.dr.prev = s.capture.dr.last ∧ t.capture.dr.last = s.now ∧
      t.capture.dr.count = s.capture.dr.count + 1 ∧
      t.imu = (match s.imu.state with
        | .idle => { s.imu with state := .reading, txn := some (.read (BitVec.ofNat 8 s.imu.cfg.address ||| 0x80) s.now) }
        | .reading => { s.imu with overruns := s.imu.overruns + 1 }
        | .stopped | .init => s.imu) ∧
      (s.imu.active = false → t.capture.dr = { s.capture.dr with
        prev := s.capture.dr.last, last := s.now, count := s.capture.dr.count + 1 }) ∧
      (s.imu.active = true →
        t.capture.dr.edgeSeen = true ∧ t.capture.dr.deadline = some (later s.now (4 * s.imu.cfg.period)) ∧
        (s.capture.dr.edgeSeen = false ∨ s.capture.dr.cadence = .locked →
          t.capture.dr.cadence = s.capture.dr.cadence ∧ t.capture.dr.lockRun = s.capture.dr.lockRun) ∧
        (s.capture.dr.edgeSeen = true → s.capture.dr.cadence = .lost →
          let d := (s.now - s.capture.dr.last).toNat
          if d < 2 ^ 39 ∧ 3 * s.imu.cfg.period ≤ 4 * d ∧ 4 * d ≤ 5 * s.imu.cfg.period then
            (s.capture.dr.lockRun < 2 →
              t.capture.dr.cadence = .lost ∧ t.capture.dr.lockRun = s.capture.dr.lockRun + 1) ∧
            (2 ≤ s.capture.dr.lockRun → t.capture.dr.cadence = .locked ∧ t.capture.dr.lockRun = 0 ∧
              ((∃ e ∈ t.link.notices, e.notice = .cadence .dr .locked s.now) ∨
                ∃ n, t.link.sending = some (noticePacket ⟨n, .cadence .dr .locked s.now⟩)))
          else t.capture.dr.cadence = .lost ∧ t.capture.dr.lockRun = 0)) ∧
      (t.capture.dr.cadence = s.capture.dr.cadence → ∀ e ∈ t.link.notices, e ∈ s.link.notices) ∧
      t.motion = s.motion ∧ t.buffer = s.buffer ∧ t.clip = s.clip ∧ t.card = s.card ∧ t.charge = s.charge ∧
      t.budget = s.budget ∧ t.pins = s.pins ∧ t.frame = { s.frame with sendList := t.frame.sendList } ∧
      t.link.parked = false ∧ t.link.parser = s.link.parser ∧ t.link.overruns = s.link.overruns ∧
      t.freeCount = s.freeCount ∧ t.pending = s.pending)

/-- FS_EDGE is ignored in PARK, and with motion stopped goes no further than the record. With motion active it starts
a frame: the record is stamped, and the edge judged against the period of the copy active for the frame it ends, which
at the third steady interval locks the channel with CADENCE; waiting copies become active; the integrators are
re-based, and where a LENS copy waited each axis is brought into line with it: the clamp on the error, the path
dragged along where it acts, the displacement formed afresh; the list holds the bands not due at once; the new record
carries the edge's timestamp, the next frame number and the number of bands, the entries of the bands due at once, its
flags those of the frame start and of the late marks, which are taken up; the loss deadline uses the new frame period.
An edge that comes while bands are outstanding first latches them with the corrections held, marks the old record
TRUNCATED and finishes it; a new record whose bands are all due at once is finished too. A finished record joins the
send list and goes to the accumulator, whose work is stated in `MotionChunkHandedOver`, or with 8 records waiting is
withheld, counted and reported with MOTION_DROP (R2, R4, R6, R8, R10, R12, R40, R41, R42, R48, R49, R50, R51). That
CADENCE is raised before the old record is dealt with, and so stands before MOTION_DROP, is the model's choice
(notes/assumptions/37.md). -/
def Obligations.FsEdge : Prop :=
  ∀ s : State,
    (s.link.parked = true → exec .fsEdge s = .next s) ∧
    (s.link.parked = false → s.imu.active = false → exec .fsEdge s = .next { s with capture := { s.capture with
      fs := { s.capture.fs with prev := s.capture.fs.last, last := s.now, count := s.capture.fs.count + 1 } } }) ∧
    (s.link.parked = false → s.imu.active = true → 0 < s.motion.lens.newest.bands →
      let lens := s.motion.lens.newest
      let fs := s.capture.fs
      -- the edge is judged against the period of the frame it ends
      let d := (s.now - fs.last).toNat
      let period := s.motion.lens.active.framePeriod
      let judged := fs.edgeSeen = true ∧ fs.cadence = .lost
      let steady := d < 2 ^ 39 ∧ 3 * period ≤ 4 * d ∧ 4 * d ≤ 5 * period
      let locks := judged ∧ steady ∧ 2 ≤ fs.lockRun
      let told := s.raiseIf (decide locks) (.cadence .fs .locked s.now)
      -- a finished record is offered to the send list, and from there to the accumulator
      let offer := fun (v : State) (r : FrameRecord) => if v.frame.sendList.length < 8
        then State.accumulate { v with frame := { v.frame with
          sendList := v.frame.sendList ++ [r], lastNumber := some r.number } } r
        else State.raise { v with frame := { v.frame with withheld := v.frame.withheld + 1 } }
          (.motionDrop .sendFull r.number 1)
      -- the frame whose bands are outstanding
      let ended := match s.frame.record with
        | none => told
        | some r => if s.capture.bands = [] then told else
          offer { told with frame := { s.frame with record := none } } { r with
            entries := r.entries ++ s.capture.bands.map (fun _ => (s.motion.axes.yaw.disp, s.motion.axes.pitch.disp))
            roll := if ∃ e ∈ s.capture.bands, e.band = r.bands / 2 then s.motion.axes.roll.disp else r.roll
            flags := { r.flags with truncated := true } }
      -- each axis re-based, and brought into line where a LENS copy becomes active
      let clamps := fun (a : LensAxis) (i : Integrator) =>
        s.motion.lens.pending.isSome && (decide (a.margin = 0) || decide (a.margin < i.err.natAbs))
      let based := fun (a : LensAxis) (i : Integrator) =>
        let c : Int := if i.err < -a.margin then -a.margin else if (a.margin : Int) < i.err then a.margin else i.err
        ({ i with
          angle := 0
          path := if clamps a i then c else i.path - i.angle
          err := if clamps a i then c else i.err
          errPrev := if clamps a i then c else i.errPrev
          disp := if s.motion.lens.pending.isSome then
              max (-32768) (min 32767 (roundHalfAway (c * (a.gain : Int)) (2 ^ 24)))
            else i.disp } : Integrator)
      let yaw := based lens.axes.yaw s.motion.axes.yaw
      let pitch := based lens.axes.pitch s.motion.axes.pitch
      let roll := based lens.axes.roll s.motion.axes.roll
      -- the bands of the new frame, in order; those due at once latch now
      let bands := (List.range lens.bands).map (fun b => (⟨b, s.now +
        BitVec.ofInt 40 (lens.latchOffset + ((2 * b + 1) * lens.readout / (2 * lens.bands) : Nat))⟩ : BandDue))
      let atOnce := fun (e : BandDue) => decide (e.due = s.now ∨ 2 ^ 39 ≤ (e.due - s.now).toNat)
      let late := s.frame.lateFlags
      let lost := decide (s.capture.dr.cadence = .lost)
      let uncalibrated := lens.axes.yaw.gain = 0 ∨ lens.axes.pitch.gain = 0 ∨ lens.axes.roll.gain = 0
      ∃ rollEntry, ((∃ e ∈ bands.takeWhile atOnce, e.band = lens.bands / 2) → rollEntry = roll.disp) ∧
        let record : FrameRecord := {
          number := match ended.frame.lastNumber with | none => 1 | some n => n + 1
          stamp := s.now, bands := lens.bands, roll := rollEntry, shocks := min s.frame.lateShocks 255
          entries := (bands.takeWhile atOnce).map (fun _ => (yaw.disp, pitch.disp))
          flags := {
            marginX := clamps lens.axes.yaw s.motion.axes.yaw || late.marginX
            marginY := clamps lens.axes.pitch s.motion.axes.pitch || late.marginY
            marginRoll := clamps lens.axes.roll s.motion.axes.roll || late.marginRoll
            saturated := late.saturated, gap := lost || late.gap, truncated := late.truncated, shock := late.shock
            uncalibrated := decide uncalibrated || late.uncalibrated, cadenceLost := lost || late.cadenceLost } }
        let rest := bands.dropWhile atOnce
        let begun : State := { ended with
          capture := { s.capture with
            fs := { fs with
              prev := fs.last, last := s.now, count := fs.count + 1, edgeSeen := true
              cadence := if locks then .locked else fs.cadence
              lockRun := if judged then (if steady ∧ fs.lockRun < 2 then fs.lockRun + 1 else 0) else fs.lockRun
              deadline := some (later s.now (4 * lens.framePeriod)) }
            bands := rest }
          motion := { s.motion with
            lens := ⟨lens, none⟩, bias := ⟨s.motion.bias.newest, none⟩, mount := ⟨s.motion.mount.newest, none⟩
            axes := ⟨yaw, pitch, roll⟩ }
          frame := { ended.frame with
            record := if rest = [] then none else some record
            inFrame := true, lateFlags := .clear, lateShocks := 0 } }
        exec .fsEdge s = .next (State.conclude (if rest = [] then offer begun record else begun)))

/-- LOSS_DEADLINE_EXPIRY of a channel whose deadline is reached: LOST with the run cleared and no deadline, and
CADENCE raised with the expired deadline where the channel was LOCKED, and only there (R5, R8). -/
def Obligations.LossDeadlineExpiry : Prop :=
  ∀ (s : State) (ch : Channel) (d : Time), (s.capture.get ch).deadline = some d → atOrAfter s.now d = true →
    let lost := { s with capture := s.capture.set ch { s.capture.get ch with
      cadence := .lost, lockRun := 0, deadline := none } }
    exec (.lossDeadlineExpiry ch) s = .next
      (if (s.capture.get ch).cadence = .locked then (lost.raise (.cadence ch .lost d)).arbitrate
       else lost.arbitrate)

/-- BAND_EXPIRY of a head entry that is due: the entry leaves the list, the held X and Y are copied into the record,
and at the middle band the held roll. With the last band the record is finished: it joins the send list while that
holds fewer than 8 and goes to the accumulator, whose work is stated in `MotionChunkHandedOver`, and otherwise is
withheld and counted, with MOTION_DROP; the integrators stay as they were (R11, R43, R44, R50, R51, R53). -/
def Obligations.BandExpiryLatches : Prop :=
  ∀ (s : State) (e : BandDue) (es : List BandDue) (r : FrameRecord), s.capture.bands = e :: es →
    s.frame.record = some r → atOrAfter s.now e.due = true →
    let latched := { r with
      entries := r.entries ++ [(s.motion.axes.yaw.disp, s.motion.axes.pitch.disp)]
      roll := if e.band = r.bands / 2 then s.motion.axes.roll.disp else r.roll }
    let ends := fun (frame : FrameBuilder) (finish : State → State) => exec .bandExpiry s =
      .next (State.conclude (finish { s with capture := { s.capture with bands := es }, frame := frame }))
    (es ≠ [] → ends { s.frame with record := some latched } id) ∧
    (es = [] →
      (s.frame.sendList.length < 8 → ends { s.frame with
          record := none, sendList := s.frame.sendList ++ [latched], lastNumber := some r.number }
        (fun u => u.accumulate latched)) ∧
      (8 ≤ s.frame.sendList.length → ends { s.frame with record := none, withheld := s.frame.withheld + 1 }
        (fun u => u.raise (.motionDrop .sendFull r.number 1))))

/-! ### Chapter 2: IMU port -/

/-- INIT_WRITE_DONE with no stop waiting: after the write of pair i the next pair is written, its address with the top
bit clear; after the last one the settle wait runs from now, and with a settle time of 0 the port is IDLE at once and
the MOTION_START that waited is answered OK. SETTLE_EXPIRY does the same once the wait has run out, and nothing before
that (R15, R16). That an expiry before its time has no effect is the model's choice (notes/assumptions/7.md). -/
def Obligations.InitSequence : Prop :=
  (∀ (s : State) (i : Nat) (a v : Byte), s.imu.txn = some (.write i a v) → s.imu.stale = false →
    (∀ x y, s.imu.cfg.pairs[i + 1]? = some (x, y) → exec .initWriteDone s = .next (State.arbitrate
      { s with imu := { s.imu with txn := some (.write (i + 1) (x &&& 0x7F) y), settleDue := none } })) ∧
    (s.imu.cfg.pairs[i + 1]? = none → 0 < s.imu.cfg.settleMs → s.imu.cfg.settleMs ≤ 100 →
      exec .initWriteDone s = .next (State.arbitrate
        { s with imu := { s.imu with txn := none, settleDue := some (later s.now (1000 * s.imu.cfg.settleMs)) } })) ∧
    (s.imu.cfg.pairs[i + 1]? = none → s.imu.cfg.settleMs = 0 →
      exec .initWriteDone s = .next (State.arbitrate (State.answerWaiting
        { s with imu := { s.imu with state := .idle, txn := none, settleDue := none } } .awaitStart .ok)))) ∧
  (∀ (s : State) (d : Time), s.imu.state = .init → s.imu.txn = none → s.imu.settleDue = some d →
    (atOrAfter s.now d = true → exec .settleExpiry s = .next (State.arbitrate (State.answerWaiting
      { s with imu := { s.imu with state := .idle, txn := none, settleDue := none } } .awaitStart .ok))) ∧
    (atOrAfter s.now d = false → exec .settleExpiry s = .next s))

/-- A transaction that was running at a MOTION_STOP ends: a read's bytes reach no block, no further pair of the old
session is written, and the MOTION_STOP that waited is answered OK. With motion still stopped the port is STOPPED.
Where a MOTION_START has been taken since, the port enters INIT: it writes the first pair, or with no pair waits for
the settle time measured from that MOTION_START, and where that time is already over it is IDLE and the MOTION_START
is answered OK as well (R16, R17, R20). That the new session's INIT begins at this end is read from the spec by
inference (notes/assumptions/20.md). -/
def Obligations.StopAtTransactionEnd : Prop :=
  ∀ (s : State) (bytes : List Byte), s.imu.stale = true →
    let ends := fun (t : State) =>
      (∀ i a v, s.imu.txn = some (.write i a v) → exec .initWriteDone s = .next t) ∧
      (∀ a stamp, s.imu.txn = some (.read a stamp) → exec (.readComplete bytes) s = .next t)
    let stopped := fun (u : ImuPort) => State.answerWaiting { s with imu := { u with stale := false } } .awaitStop .ok
    (s.imu.active = false → ends (stopped { s.imu with state := .stopped, txn := none }).arbitrate) ∧
    (s.imu.active = true →
      (∀ a v rest, s.imu.cfg.pairs = (a, v) :: rest → ends (stopped { s.imu with
        state := .init, txn := some (.write 0 (a &&& 0x7F) v), settleDue := none }).arbitrate) ∧
      (s.imu.cfg.pairs = [] → ∀ due, s.imu.settleDue = some due →
        (atOrAfter s.now due = false → ends (stopped { s.imu with state := .init, txn := none }).arbitrate) ∧
        (atOrAfter s.now due = true → ends (State.answerWaiting
          (stopped { s.imu with state := .idle, txn := none, settleDue := none }) .awaitStart .ok).arbitrate)))

/-- READ_COMPLETE: the port is IDLE again and the sample is processed. Each axis makes the fill steps that the gap
rule gives, at most 8 at the held rates and the rest at 0, and then its own step; the gap state takes the sample's
timestamp and mapped rates; the record's flags gain the sample's marks, MARGIN on each axis that any of these steps
marked, SATURATED and GAP, and without a record they go to the late marks of a frame in progress. A shock event that
the detector fires is counted, marks the record, raises SHOCK, may start the shock hold, where a later deadline that
stands is kept, and asks for the protection of the FILLING segment and then of the newest CLOSED one within the
pre-event window: each takes a place that the limit has left, the FILLING segment first, or is refused, counted and
reported (R15, R18, R21, R26, R28, R29, R30, R39, R49, R59, R98, R120). -/
def Obligations.ReadCompleteProcesses : Prop :=
  ∀ (s : State) (bytes : List Byte) (a : Byte) (stamp : Time), s.imu.txn = some (.read a stamp) →
    s.imu.stale = false →
    let x := sampleOf bytes stamp
    let gap := s.motion.gap.measure stamp s.imu.cfg.period
    let fires := (s.motion.shock.afterGap gap.1).fires s.imu.cfg (x.high s.imu.cfg)
    let filled := fun (a : LensAxis) (held : Int) (k : Nat) (i : Integrator) =>
      Nat.repeat (fun j => j.step a 0) (k - 8) (Nat.repeat (fun j => j.step a held) (min k 8) i)
    let moved := fun (a : LensAxis) (held own : Int) (i : Integrator) => (filled a held gap.2 i).step a own
    let marked := fun (a : LensAxis) (held own : Int) (i : Integrator) =>
      (∃ k, k < gap.2 ∧ (filled a held k i).stepMark a (if k < 8 then held else 0) = true) ∨
      (filled a held gap.2 i).stepMark a own = true
    let held := s.motion.gap.lastRates
    let own := s.motion.rates x
    let lens := s.motion.lens.active.axes
    let gains := fun (f f' : FrameFlags) => ∃ y p r : Bool,
      (y = true ↔ marked lens.yaw held.yaw own.yaw s.motion.axes.yaw) ∧
      (p = true ↔ marked lens.pitch held.pitch own.pitch s.motion.axes.pitch) ∧
      (r = true ↔ marked lens.roll held.roll own.roll s.motion.axes.roll) ∧
      f' = { f with
        marginX := f.marginX || y, marginY := f.marginY || p, marginRoll := f.marginRoll || r
        saturated := f.saturated || s.motion.saturated x, gap := f.gap || gap.1, shock := f.shock || fires }
    ∃ u, exec (.readComplete bytes) s = .next (State.conclude u) ∧
      u = { s with
        imu := { s.imu with state := .idle, txn := none }
        motion := { s.motion with
          axes := ⟨moved lens.yaw held.yaw own.yaw s.motion.axes.yaw,
            moved lens.pitch held.pitch own.pitch s.motion.axes.pitch,
            moved lens.roll held.roll own.roll s.motion.axes.roll⟩
          gap := { lastGood := some stamp, lastRates := own,
                   count := if gap.1 then s.motion.gap.count + 1 else s.motion.gap.count }
          shock := { (s.motion.shock.afterGap gap.1).judge s.imu.cfg (x.high s.imu.cfg) with
            total := if fires then s.motion.shock.total + 1 else s.motion.shock.total }
          lastTemp := x.temp }
        frame := { s.frame with
          record := u.frame.record, lateFlags := u.frame.lateFlags, lateShocks := u.frame.lateShocks }
        clip := { s.clip with slots := u.clip.slots, protectRefused := u.clip.protectRefused }
        card := { s.card with shockHold := u.card.shockHold }
        link := { s.link with notices := u.link.notices } } ∧
      (∀ r, s.frame.record = some r → u.frame.lateFlags = s.frame.lateFlags ∧
        u.frame.lateShocks = s.frame.lateShocks ∧ ∃ r', u.frame.record = some r' ∧ gains r.flags r'.flags ∧
        r' = { r with flags := r'.flags, shocks := if fires then min (r.shocks + 1) 255 else r.shocks }) ∧
      (s.frame.record = none → u.frame.record = none ∧
        (s.frame.inFrame = true → gains s.frame.lateFlags u.frame.lateFlags ∧
          u.frame.lateShocks = if fires then min (s.frame.lateShocks + 1) 255 else s.frame.lateShocks) ∧
        (s.frame.inFrame = false → u.frame.lateFlags = s.frame.lateFlags ∧ u.frame.lateShocks = s.frame.lateShocks)) ∧
      (fires = false → u.card = s.card ∧ u.clip = s.clip ∧ u.link = s.link) ∧
      (fires = true →
        (∃ e ∈ u.link.notices, e.notice = .shock stamp (s.motion.shock.total + 1)) ∧
        (let hold := later stamp (1000 * s.clip.cfg.shockHoldMs)
         (s.clip.cfg.shockHoldMs = 0 ∨ atOrAfter s.now hold = true ∨
            (∃ old, s.card.shockHold = some old ∧ atOrAfter old hold = true) → u.card.shockHold = s.card.shockHold) ∧
         (s.clip.cfg.shockHoldMs ≠ 0 → atOrAfter s.now hold = false →
            (∀ old, s.card.shockHold = some old → atOrAfter old hold = false) → u.card.shockHold = some hold)) ∧
        (let limit := s.clip.cfg.protectLimit
         let count := s.clip.protectedCount
         let refused := fun (slot : Nat) => ∃ e ∈ u.link.notices, e.notice = .protectRefused slot stamp
         -- step 1: the FILLING segment
         let asks := s.clip.filling.any (fun f => (s.clip.slot f.slot).prot.isNone)
         let now := if asks = true ∧ count < limit then count + 1 else count
         (∀ f, s.clip.filling = some f → f.slot < 64 → (s.clip.slot f.slot).state = .filling →
           u.clip.slot f.slot = { s.clip.slot f.slot with
             shocks := min ((s.clip.slot f.slot).shocks + 1) 65535
             prot := if (s.clip.slot f.slot).prot = none ∧ count < limit then some .shock
               else (s.clip.slot f.slot).prot }) ∧
         -- step 2: the CLOSED slot with the highest close sequence, once step 1 is done
         (∀ i, i < 64 → (s.clip.slot i).state = .closed →
           (∀ j, j ≠ i → (s.clip.slot j).state = .closed →
             ((s.clip.slot j).closeSeq.getD 0).toNat < ((s.clip.slot i).closeSeq.getD 0).toNat) →
           (∀ f, s.clip.filling = some f → f.slot < 64 ∧ (s.clip.slot f.slot).state = .filling) →
           let d := (stamp - (s.clip.slot i).endTime.getD 0).toNat
           let asksToo := (d ≤ 1000000 * s.clip.cfg.preEventS ∨ 2 ^ 39 ≤ d) ∧ (s.clip.slot i).prot = none
           u.clip.slot i = { s.clip.slot i with
             prot := if asksToo ∧ now < limit then some .shock else (s.clip.slot i).prot } ∧
           u.clip.protectRefused = s.clip.protectRefused + (if asks = true ∧ limit ≤ count then 1 else 0) +
             (if asksToo ∧ limit ≤ now then 1 else 0) ∧
           (asksToo → limit ≤ now → refused i) ∧
           (∀ f, s.clip.filling = some f → asks = true → limit ≤ count → ¬asksToo → refused f.slot) ∧
           (∀ j, j ≠ i → (s.clip.slot j).state = .closed → u.clip.slot j = s.clip.slot j)) ∧
         -- with no CLOSED slot there is no step 2
         ((∀ i, (s.clip.slot i).state ≠ .closed) →
           (∀ f, s.clip.filling = some f → f.slot < 64 → (s.clip.slot f.slot).state = .filling →
             (asks = true → limit ≤ count → u.clip.protectRefused = s.clip.protectRefused + 1 ∧ refused f.slot) ∧
             (asks = false ∨ count < limit → u.clip.protectRefused = s.clip.protectRefused)) ∧
           (s.clip.filling = none → u.clip = s.clip)) ∧
         (∀ j, (s.clip.slot j).state ≠ .closed → s.clip.filling.map Filling.slot ≠ some j →
           u.clip.slot j = s.clip.slot j)))

/-- The mapped rate of a camera axis: 16 times the raw value of its source axis less the bias interpolated at the
sample's temperature, negated where the sign is −. The bias is at a point of the table the point itself; below −10 °C
the first point and above 70 °C the last; between two points it lies between theirs (R21, R23, R24, R26). -/
def Obligations.CalibratedRates : Prop :=
  (∀ (m : MotionComputer) (x : Sample),
    let rate := fun (src : MountSource) =>
      (if src.negative then -1 else 1) * (16 * x.gyro src.axis - biasAt (biasPoints m.bias.active src.axis) x.temp)
    m.rates x = ⟨rate m.mount.active.yaw, rate m.mount.active.pitch, rate m.mount.active.roll⟩ ∧
    (∀ raw : Int, gyroSaturated raw = true ↔ raw = 32767 ∨ raw = -32767 ∨ raw = -32768) ∧
    (m.saturated x = true ↔ ∃ src, (src = m.mount.active.yaw ∨ src = m.mount.active.pitch ∨ src = m.mount.active.roll) ∧
      gyroSaturated (x.gyro src.axis) = true)) ∧
  (∀ p : List Int, p.length = 9 →
    (∀ i : Nat, i < 9 → biasAt p (-160 + 160 * (i : Int)) = p.getD i 0) ∧
    (∀ t, t ≤ -160 → biasAt p t = p.getD 0 0) ∧ (∀ t, 1120 ≤ t → biasAt p t = p.getD 8 0) ∧
    (∀ (i : Nat) (t : Int), i < 8 → -160 + 160 * (i : Int) ≤ t → t < 160 * (i : Int) →
      min (p.getD i 0) (p.getD (i + 1) 0) ≤ biasAt p t ∧ biasAt p t ≤ max (p.getD i 0) (p.getD (i + 1) 0) ∧
      biasAt p t - p.getD i 0 = roundHalfAway ((p.getD (i + 1) 0 - p.getD i 0) * (t + 160 - 160 * (i : Int))) 160))

/-- The gap rule: no last good timestamp or a distance of at most one and a half periods measures no gap; an invalid
difference is a gap with no fill steps; otherwise a gap is detected whose fill steps and own step together number the
periods nearest to the distance (R29). -/
def Obligations.GapMeasure : Prop :=
  ∀ (g : GapState) (stamp : Time) (period : Nat), 0 < period →
    (g.lastGood = none → g.measure stamp period = (false, 0)) ∧
    (∀ t, g.lastGood = some t →
      let d := (stamp - t).toNat
      (2 ^ 39 ≤ d → g.measure stamp period = (true, 0)) ∧
      (d < 2 ^ 39 → 2 * d ≤ 3 * period → g.measure stamp period = (false, 0)) ∧
      (d < 2 ^ 39 → 3 * period < 2 * d → ∃ m, g.measure stamp period = (true, m) ∧ 1 ≤ m ∧
        2 * (m + 1) * period ≤ 2 * d + period ∧ 2 * d + period < 2 * (m + 2) * period))

/-! ### Chapter 3: the integrators -/

/-- The three rounding rules, each by what characterises it (R32). -/
def Obligations.RoundingRules : Prop :=
  (∀ (v : Int) (n : Nat), floorShift v n * 2 ^ n ≤ v ∧ v < (floorShift v n + 1) * 2 ^ n) ∧
  (∀ (a : Int) (b : Nat), 0 < b →
    2 * (roundHalfAway a b * (b : Int) - a).natAbs ≤ b ∧
    (2 * (roundHalfAway a b * (b : Int) - a).natAbs = b → a.natAbs < (roundHalfAway a b * (b : Int)).natAbs) ∧
    roundHalfAway a b = a.sign * truncDiv (2 * (a.natAbs : Int) + b) (2 * b)) ∧
  (∀ (a : Int) (n : Nat), 1 ≤ n →
    roundHalfAway a (2 ^ n) = a.sign * floorShift ((a.natAbs : Int) + 2 ^ (n - 1)) n) ∧
  (∀ a b : Int, 0 < b → (truncDiv a b * b).natAbs ≤ a.natAbs ∧ (a - truncDiv a b * b).natAbs < b.natAbs ∧
    0 ≤ truncDiv a b * a) ∧
  floorShift 8000 8 = 31 ∧ floorShift 255 8 = 0 ∧ floorShift (-1) 8 = -1 ∧ floorShift (-256) 8 = -1 ∧
  floorShift (-257) 8 = -2 ∧ roundHalfAway 5 2 = 3 ∧ roundHalfAway (-5) 2 = -3 ∧
  roundHalfAway 133520595 16777216 = 8 ∧ roundHalfAway 70 160 = 0 ∧ truncDiv 560 160 = 3 ∧ truncDiv (-7) 2 = -3

/-- The effective shift by the magnitude of the previous error (R35). -/
def Obligations.EffectiveShift : Prop :=
  ∀ (a : LensAxis) (c : Int),
    (c.natAbs ≤ a.margin / 2 → effectiveShift a c = a.shift) ∧
    (a.margin / 2 < c.natAbs → c.natAbs ≤ 3 * a.margin / 4 → effectiveShift a c = max (a.shift - 2) 1) ∧
    (3 * a.margin / 4 < c.natAbs → effectiveShift a c = max (a.shift - 4) 1) ∧
    (a.margin = 0 → effectiveShift a 0 = a.shift)

/-- One integrator step: the rate joins the angle, the path moves by the floor shift, the error is clamped to the
margin with the path dragged along, the previous error and the displacement follow, and an angle of 2^46 or more is
re-based; the step marks the axis where the clamp acts or the margin is 0 (R34, R36, R37, R38, R46). -/
def Obligations.IntegratorStep : Prop :=
  ∀ (a : LensAxis) (i : Integrator) (g : Int),
    let angle := i.angle + g
    let e := i.path + floorShift (angle - i.path) (effectiveShift a i.errPrev) - angle
    let l : Int := a.margin
    let j := i.step a g
    (l < e → j.err = l) ∧ (e < -l → j.err = -l) ∧ (-l ≤ e → e ≤ l → j.err = e) ∧
    j.errPrev = j.err ∧ j.path - j.angle = j.err ∧
    (angle.natAbs < 2 ^ 46 → j.angle = angle) ∧ (2 ^ 46 ≤ angle.natAbs → j.angle = 0 ∧ j.path = j.err) ∧
    (let d : Int := (j.err * (a.gain : Int)).sign * (((j.err.natAbs * a.gain + 2 ^ 23) / 2 ^ 24 : Nat) : Int)
     (d < -32768 → j.disp = -32768) ∧ (32767 < d → j.disp = 32767) ∧ (-32768 ≤ d → d ≤ 32767 → j.disp = d)) ∧
    (i.stepMark a g = true ↔ l = 0 ∨ e < -l ∨ l < e)

/-- After a step, and after bringing an axis into line with new parameters, the error lies within the margin in force
and the displacement within the rounded product of margin and gain and within signed 16 bits (R37, R38, R42). -/
def Obligations.DisplacementBound : Prop :=
  ∀ (a : LensAxis) (i j : Integrator), ((∃ g, j = i.step a g) ∨ j = i.lineUp a) →
    (j = i.lineUp a → i.err.natAbs ≤ a.margin → j.err = i.err ∧ j.path = (if a.margin = 0 then i.angle else i.path)) ∧
    j.err.natAbs ≤ a.margin ∧ (j.disp.natAbs : Int) ≤ roundHalfAway ((a.margin : Int) * a.gain) (2 ^ 24) ∧
    -32768 ≤ j.disp ∧ j.disp ≤ 32767

/-- Nothing the host sees depends on a common shift of angle and path: two axes that differ only by such a shift make
the same errors, displacements, marks and path less angle over any rates. Re-basing is the shift by −A (R41, section
3.3). -/
def Obligations.CommonShiftUnseen : Prop :=
  ∀ (a : LensAxis) (i : Integrator) (k g : Int) (rates : List Int),
    let run := fun (x : Integrator) => rates.foldl (fun y r => y.step a r) x
    let shifted := { i with angle := i.angle + k, path := i.path + k }
    (run shifted).err = (run i).err ∧ (run shifted).errPrev = (run i).errPrev ∧
    (run shifted).disp = (run i).disp ∧ (run shifted).stepMark a g = (run i).stepMark a g ∧
    (run shifted).path - (run shifted).angle = (run i).path - (run i).angle ∧
    (k = -i.angle → i.rebase = shifted) ∧ i.rebase.angle = 0 ∧ i.rebase.path = i.path - i.angle ∧
    i.rebase.err = i.err ∧ i.rebase.errPrev = i.errPrev ∧ i.rebase.disp = i.disp

/-! ### Chapter 4: shock detector and motion chunks -/

/-- The shock detector: an armed one fires at the sample that completes a run of high samples, disarms and clears its
runs; a disarmed one arms again at the sample that completes the rearm count of low samples; a gap clears both runs
before the sample is judged (R57, R58). -/
def Obligations.ShockDetection : Prop :=
  ∀ (d : ShockDetector) (cfg : MotionCfg) (x : Sample),
    (x.high cfg = true ↔ (cfg.shockT : Int) * cfg.shockT ≤ x.ax * x.ax + x.ay * x.ay + x.az * x.az) ∧
    (∀ high, (d.fires cfg high = true ↔ d.armed = true ∧ high = true ∧ cfg.shockRun ≤ d.highRun + 1) ∧
      (d.fires cfg high = true → d.judge cfg high = { d with armed := false, highRun := 0, lowRun := 0 }) ∧
      (d.armed = true → high = true → d.highRun + 1 < cfg.shockRun →
        d.judge cfg high = { d with highRun := d.highRun + 1 })) ∧
    (d.armed = true → d.judge cfg false = { d with highRun := 0 }) ∧
    (d.armed = false → d.judge cfg true = { d with lowRun := 0 } ∧
      (cfg.rearm ≤ d.lowRun + 1 → d.judge cfg false = { d with armed := true, lowRun := 0 }) ∧
      (d.lowRun + 1 < cfg.rearm → d.judge cfg false = { d with lowRun := d.lowRun + 1 })) ∧
    d.afterGap true = { d with highRun := 0, lowRun := 0 } ∧ d.afterGap false = d

/-- Frame records hand over as motion chunks: a closed accumulator takes none; an open one grows by one record until
it holds the number that CLIP_CFG gives, and then hands them over as one READY chunk whose payload is their bytes end
to end, stored after the chunk header in pages from the head of the free list. Without a free descriptor or page the
chunk is dropped, counted and reported with its first frame number and its number of records; which reason is given
where both are wanting is left open (R50, R53, R54, R60, R61, R64; notes/assumptions/3.md). -/
def Obligations.MotionChunkHandedOver : Prop :=
  ∀ (s : State) (r : FrameRecord), (s.frame.accOpen = false → s.accumulate r = s) ∧
    (s.frame.accOpen = true → s.frame.acc.length + 1 < s.clip.cfg.perChunk →
      s.accumulate r = { s with frame := { s.frame with acc := s.frame.acc ++ [r] } }) ∧
    (s.frame.accOpen = true → s.clip.cfg.perChunk ≤ s.frame.acc.length + 1 →
      let recs := s.frame.acc ++ [r]
      let payload := recs.flatMap FrameRecord.bytes
      let need := (16 + payload.length + 4095) / 4096
      let pages := s.buffer.free.take need
      let stamp := (recs.map FrameRecord.stamp).headD 0
      let emptied := { s.frame with acc := [] }
      let drop := fun (n : Nat) (reason : DropReason) => State.raise
        { s with frame := emptied, freeCount := s.freeCount + n
                 buffer := { s.buffer with motionDrop := s.buffer.motionDrop + 1 } }
        (.motionDrop reason ((recs.map FrameRecord.number).headD 0) recs.length)
      (s.buffer.queue.length < 256 → s.buffer.free ≠ [] → s.accumulate r = { s with
        frame := emptied
        buffer := { s.buffer with
          ram := ramStore pages 16 payload
            (ramStore pages 0 (chunkHeader .motion false payload.length s.buffer.nextSeq stamp) s.buffer.ram)
          free := s.buffer.free.drop need
          queue := s.buffer.queue ++ [{ seq := s.buffer.nextSeq, kind := .motion, key := false, hostTime := stamp,
                                        arrival := some s.now, length := payload.length, pages := pages, acked := 0,
                                        state := .ready, place := none }]
          nextSeq := s.buffer.nextSeq + 1, accepted := s.buffer.accepted + 1 } }) ∧
      (256 ≤ s.buffer.queue.length → s.buffer.free ≠ [] → s.accumulate r = drop 0 .noDescriptor) ∧
      (s.buffer.queue.length < 256 → s.buffer.free = [] → s.accumulate r = drop 0 .noPage) ∧
      (256 ≤ s.buffer.queue.length → s.buffer.free = [] →
        s.accumulate r = drop 1 .noDescriptor ∨ s.accumulate r = drop 1 .noPage))

/-! ### Chapter 5: the chunk buffer -/

/-- MEDIA_HEADER of a MEDIA packet taken at a header boundary. Refused, counted and reported with the reason and the
host timestamp, its payload dropped: PARKED in PARK; NOT_RECORDING in IDLE and CLOSING; EMERGENCY in EMERGENCY;
NO_SPACE while recording without a free descriptor or without the pages it needs and two more. Otherwise accepted: a
RECEIVING descriptor at the tail with the header's kind, keyframe flag and timestamp, the next sequence number and
pages from the head of the free list, in which the chunk header stands; its payload is stored from here on. A payload
length of 0 carries no chunk. While RESET is asserted or an accepted payload is in progress, and for a header of
another kind, nothing happens (R60, R61, R62, R64, R65, R66, R67, R69, R157, R170, R174). That a header that comes
within an accepted payload, and one that selects another row, change nothing is the model's choice
(notes/assumptions/21.md, notes/assumptions/4.md). -/
def Obligations.MediaHeaderJudged : Prop :=
  ∀ (s : State) (h : Header),
    (s.pins.reset = true ∨ (∃ n, s.link.parser = .storing n) ∨ h.b0.toNat % 16 ≠ 1 ∨ 65520 < h.len.toNat →
      exec (.mediaHeader h) s = .next s) ∧
    (s.pins.reset = false → (∀ n, s.link.parser ≠ .storing n) → h.b0.toNat % 16 = 1 → h.len.toNat ≤ 65520 →
      let need := (16 + h.len.toNat + 4095) / 4096
      let time : Time := BitVec.ofNat 40 (h.b1.toNat + 256 * h.tail.toNat)
      let refused := fun reason => exec (.mediaHeader h) s = .next (State.conclude (State.raise
        { s with buffer := { s.buffer with mediaDiscard := s.buffer.mediaDiscard + 1 }
                 link := { s.link with parser := .dropping h.len.toNat } } (.mediaDiscard reason time)))
      let recording := s.clip.state = .recording ∨ s.clip.state = .rolloverWait
      (h.len = 0 → exec (.mediaHeader h) s =
        .next (State.conclude { s with link := { s.link with parser := .header } })) ∧
      (h.len ≠ 0 →
        (s.link.parked = true → refused .parked) ∧
        (s.link.parked = false →
          (s.clip.state = .idle ∨ s.clip.state = .closing → refused .notRecording) ∧
          (s.clip.state = .emergency → refused .emergency) ∧
          (recording → (256 ≤ s.buffer.queue.length ∨ s.buffer.free.length < need + 2) → refused .noSpace) ∧
          (recording → s.buffer.queue.length < 256 → need + 2 ≤ s.buffer.free.length →
            let code := h.b0.toNat / 16 % 8
            let kind : ChunkKind := if code = 1 then .video else if code = 2 then .audio else .data
            let key := decide (128 ≤ h.b0.toNat) && decide (code = 1)
            let pages := s.buffer.free.take need
            exec (.mediaHeader h) s = .next (State.conclude { s with
              buffer := { s.buffer with
                ram := ramStore pages 0 (chunkHeader kind key h.len.toNat s.buffer.nextSeq time) s.buffer.ram
                free := s.buffer.free.drop need
                queue := s.buffer.queue ++ [{ seq := s.buffer.nextSeq, kind := kind, key := key, hostTime := time,
                                              arrival := none, length := h.len.toNat, pages := pages, acked := 0,
                                              state := .receiving, place := none }]
                nextSeq := s.buffer.nextSeq + 1, accepted := s.buffer.accepted + 1 }
              link := { s.link with parser := .storing h.len.toNat } })))))

/-- MEDIA_PAYLOAD_COMPLETE of the payload in progress leaves the parser at the next header: the RECEIVING chunk's
payload stands after its header in its pages, and the chunk is READY with this arrival time; the payload of a chunk
that was refused, or discarded while it arrived, is consumed with no other effect. With no such payload in progress
nothing happens (R61, R66, R67, R71, R157). That a completion nothing waits for changes nothing, and that a payload is
stored in one piece, is the model's choice (notes/assumptions/7.md, notes/assumptions/21.md). -/
def Obligations.MediaPayloadComplete : Prop :=
  ∀ (s : State) (payload : List Byte), s.pins.reset = false →
    let atHeader := { s.link with parser := .header }
    (s.link.parser = .storing payload.length →
      (∀ c ∈ s.buffer.queue, c.state = .receiving → c.length = payload.length →
        (∀ d ∈ s.buffer.queue, d.state = .receiving → d = c) →
        exec (.mediaPayloadComplete payload) s = .next (State.conclude { s with
          link := atHeader
          buffer := { s.buffer with
            ram := ramStore c.pages 16 payload s.buffer.ram
            queue := s.buffer.queue.map (fun d =>
              if d = c then { d with state := .ready, arrival := some s.now } else d) } })) ∧
      ((∀ c ∈ s.buffer.queue, c.state ≠ .receiving) →
        exec (.mediaPayloadComplete payload) s = .next { s with link := atHeader })) ∧
    (s.link.parser = .dropping payload.length →
      exec (.mediaPayloadComplete payload) s = .next { s with link := atHeader }) ∧
    (s.link.parser ≠ .storing payload.length → s.link.parser ≠ .dropping payload.length →
      exec (.mediaPayloadComplete payload) s = .next s)

/-- Bytes stored in a chunk's pages read back in order, every other byte of the page memory reads as before, and the
memory keeps its canonical form (R60, R61). -/
def Obligations.PayloadReadsBack : Prop :=
  ∀ (ram : List Host.Cell) (pages : List Nat) (off : Nat) (bytes : List Byte), ramWf ram = true → pages.Nodup →
    off + bytes.length ≤ 4096 * pages.length →
    let after := ramStore pages off bytes ram
    ramWf after = true ∧
    (∀ j b, bytes[j]? = some b → ramRead after (pageAddress pages (off + j)) = b) ∧
    (∀ a, (∀ j, j < bytes.length → pageAddress pages (off + j) ≠ a) → ramRead after a = ramRead ram a) ∧
    (∀ i o g, o < 4096 → pages[i]? = some g → pageAddress pages (4096 * i + o) = 4096 * g + o)

/-- LATENCY_EXPIRY of a deadline reached lets the latency trigger's clock condition stand; before its time nothing
happens (R74, R75). MALFORMED_PACKET is consumed, counted and reported with its header's bytes, BAD_KIND or
BAD_LENGTH, and its payload, or 65520 bytes of a longer one, dropped; which of the two reasons is given where both
hold is left open. In the middle of an accepted payload, and for a header that is not malformed, nothing happens
(R157, R158; notes/assumptions/3.md). That an expiry before its time, a packet within an accepted payload and a header
that selects another row change nothing is the model's choice (notes/assumptions/7.md, notes/assumptions/21.md,
notes/assumptions/4.md). -/
def Obligations.LatencyAndMalformed : Prop :=
  (∀ (s : State) (d : Time), s.buffer.latDeadline = some d →
    (atOrAfter s.now d = true → s.buffer.latExpired = false → exec .latencyExpiry s =
      .next (State.conclude { s with buffer := { s.buffer with latExpired := true } })) ∧
    (atOrAfter s.now d = false → exec .latencyExpiry s = .next s)) ∧
  (∀ (s : State) (h : Header),
    let badKind := h.b0.toNat % 16 = 0 ∨ 4 < h.b0.toNat % 16
    let reported := fun (n : Nat) (reason : OverrunReason) =>
      exec (.malformedPacket h) s = .next (State.arbitrate (State.raise
        { s with freeCount := s.freeCount + n
                 link := { s.link with
                   overruns := s.link.overruns + 1
                   parser := if h.len = 0 then .header else .dropping (min h.len.toNat 65520) } }
        (.linkOverrun reason h.b0 h.b1 h.len)))
    (s.listening = true →
      (badKind → h.len.toNat ≤ 65520 → reported 0 .badKind) ∧
      (¬badKind → 65520 < h.len.toNat → reported 0 .badLength) ∧
      (badKind → 65520 < h.len.toNat → reported 1 .badKind ∨ reported 1 .badLength)) ∧
    (s.listening = false ∨ ¬badKind ∧ h.len.toNat ≤ 65520 → exec (.malformedPacket h) s = .next s))

/-! ### Chapter 10: taking requests -/

/-- A packet's codes select one row; a request row whose packet selects another, or that comes while RESET is asserted
or an accepted payload is in progress, changes nothing. A command whose payload is not as long as its arguments is
answered BAD_ARG and not carried out, RESTART among them; a code that names no command is answered UNKNOWN; all leave
PARK. A request behind eight outstanding ones is dropped unexecuted with LINK_OVERRUN TOO_MANY, and still ends PARK.
RESET_RELEASE lets the arbiter go on (R157, R159, R161, R169, R170, R171, R174). That a row whose packet selects
another row changes nothing, and a packet within an accepted payload likewise, is the model's choice
(notes/assumptions/4.md, notes/assumptions/21.md). -/
def Obligations.RequestsTurnedAway : Prop :=
  let clipRows : List (Packet → Instr) := [.clipStart, .clipStop, .flush]
  let rows : List (Packet → Instr) := [.segmentFree, .segmentProtect, .segmentUnprotect, .motionStart, .motionStop,
    .chargeInhibit, .chargeAllow, .chargeClear, .inputLimit, .cardRetry, .logClear, .status, .park, .restart,
    .unknownCommand, .windowLoad, .segmentLoad, .biasLoad, .mountLoad, .lensLoad, .motionCfgLoad, .clipCfgLoad,
    .chargeProfileLoad, .ocvLoad, .budgetCfgLoad, .tableLoadOther, .tableRead]
  (∀ p : Packet, p.payload.length = p.header.len.toNat →
    (packetRow p).wf = true ∧
    (∀ c ∈ clipRows ++ rows, (c p).wf = true → packetRow p = c p ∨ c p = .tableLoadOther p)) ∧
  (∀ (s : State) (p : Packet), (∀ c ∈ rows, s.listening = false ∨ (c p).wf = false → exec (c p) s = .next s.arbitrate) ∧
    (∀ c ∈ clipRows, s.listening = false ∨ (c p).wf = false → exec (c p) s = .next s.conclude)) ∧
  (∀ (s : State) (p : Packet),
    let answer := fun code => s.served p .command id (.ready code [])
    (∀ (c : Packet → Instr) (n : Nat),
      (c, n) ∈ [(.clipStart, 5), (.clipStop, 0), (.flush, 0)] → s.executes (c p) → p.payload.length ≠ n →
      exec (c p) s = .next (answer .badArg).conclude) ∧
    (∀ (c : Packet → Instr) (n : Nat),
      (c, n) ∈ [(.segmentFree, 1), (.segmentProtect, 1), (.segmentUnprotect, 1), (.motionStart, 0), (.motionStop, 0),
        (.chargeInhibit, 0), (.chargeAllow, 0), (.chargeClear, 0), (.inputLimit, 2), (.cardRetry, 0), (.logClear, 0),
        (.status, 0), (.park, 0), (.restart, 0)] → s.executes (c p) → p.payload.length ≠ n →
      exec (c p) s = .next (answer .badArg).arbitrate) ∧
    (s.executes (.unknownCommand p) → exec (.unknownCommand p) s = .next (answer .unknown).arbitrate)) ∧
  (∀ (s : State) (p : Packet), s.listening = true → 8 ≤ s.link.outstanding.length →
    let dropped := State.raise
      { s with link := { s.link with parser := .header, parked := false, overruns := s.link.overruns + 1 } }
      (.linkOverrun .tooMany p.header.b0 p.header.b1 p.header.len)
    (∀ c ∈ rows, (c p).wf = true → (c p ≠ .restart p ∨ p.payload ≠ []) → exec (c p) s = .next dropped.arbitrate) ∧
    (∀ c ∈ clipRows, (c p).wf = true → exec (c p) s = .next dropped.conclude)) ∧
  (∀ s : State, s.pins.reset = true → s.listening = false ∧ s.arbitrate = s ∧
    (∀ h payload, exec (.mediaHeader h) s = .next s ∧ exec (.mediaPayloadComplete payload) s = .next s ∧
      exec (.malformedPacket h) s = .next s) ∧
    exec .resetRelease s = .next (State.arbitrate { s with pins := { s.pins with reset := false } }))

/-! ### Chapter 6: clip commands -/

/-- CLIP_START that opens a clip: in IDLE with its queue empty, a mode of 0 or 1, a card that is READY or SLEEP, and
the slot that a search tries first, the first FREE one or in LOOP, with none FREE, the unprotected CLOSED one with the
lowest close sequence. With no usable block that slot becomes UNUSABLE and the command goes on as without it.
Otherwise the slot becomes FILLING with the clip's number and start time and its record set afresh, the clip recorder
RECORDING, the sequence numbers start at 1, the accumulator opens empty, the ordered flag is cleared, and the answer
is OK (R53, R64, R88, R90, R91, R155). -/
def Obligations.ClipStartOpens : Prop :=
  ∀ (s : State) (p : Packet) (i b0 b1 b2 b3 m : Nat), s.executes (.clipStart p) →
    p.payload = [BitVec.ofNat 8 b0, BitVec.ofNat 8 b1, BitVec.ofNat 8 b2, BitVec.ofNat 8 b3, BitVec.ofNat 8 m] →
    b0 < 256 → b1 < 256 → b2 < 256 → b3 < 256 → m ≤ 1 → s.clip.state = .idle → s.buffer.queue = [] →
    (s.card.state = .ready ∨ s.card.state = .sleep) →
    s.clip.Chosen (if m = 0 then .loop else .linear) none i →
    ((s.contributions i).sum = 0 → exec (.clipStart p) s = exec (.clipStart p) { s with clip := { s.clip with
      slots := s.clip.slots.setIfInBounds i { s.clip.slot i with
        state := .unusable, clip := none, firstSeq := none, lastSeq := none, startTime := none, endTime := none
        closeSeq := none, endReason := none } } }) ∧
    ((s.contributions i).sum ≠ 0 → ∃ t, exec (.clipStart p) s = .next t ∧
      (let clip : Word32 := BitVec.ofNat 32 (b0 + 256 * b1 + 65536 * b2 + 16777216 * b3)
       t.clip = { s.clip with
         state := .recording, clipNumber := clip, mode := if m = 0 then .loop else .linear
         slots := s.clip.slots.setIfInBounds i { s.clip.slot i with
           state := .filling, clip := some clip, startTime := some s.now, firstSeq := none, lastSeq := none,
           endTime := none, closeSeq := none, endReason := none, streamLen := 0, skips := [], shocks := 0 }
         filling := some { slot := i, placement := 0, front := 0, pending := none, anyPlaced := false, limit := 0,
                           contrib := s.contributions i, fillers := [], damagedAt := none } }) ∧
      t.buffer.queue = [] ∧ t.buffer.nextSeq = 1 ∧ t.frame.accOpen = true ∧ t.frame.acc = [] ∧
      t.budget.ordered = false ∧ t.link.parked = false ∧ t.capture = s.capture ∧ t.imu = s.imu ∧
      t.motion = s.motion ∧ t.card = s.card ∧ t.charge = s.charge ∧
      (⟨p.header.b1, .command, .ready .ok []⟩ ∈ t.link.outstanding ∨
        t.link.sending = some (answerPacket p.header.b1 .ok [])))

/-- CLIP_START's refusals in their order: BUSY in any state but IDLE, BAD_ARG for another mode, NO_CARD with no card
READY or SLEEP, and NO_SEGMENT where no slot is FREE and, in LOOP, none is CLOSED and unprotected; nothing else
changes (R90, R91). -/
def Obligations.ClipStartRefused : Prop :=
  ∀ (s : State) (p : Packet), s.executes (.clipStart p) → p.payload.length = 5 →
    let mode := (p.payload.getD 4 0).toNat
    let card := s.card.state = .ready ∨ s.card.state = .sleep
    let answers := fun code => exec (.clipStart p) s = .next (s.served p .command id (.ready code [])).conclude
    (s.clip.state ≠ .idle → answers .busy) ∧
    (s.clip.state = .idle →
      (1 < mode → answers .badArg) ∧
      (mode ≤ 1 →
        (¬card → answers .noCard) ∧
        (card → (∀ i, i < 64 → (s.clip.slot i).state ≠ .free ∧
          (mode = 1 ∨ (s.clip.slot i).state ≠ .closed ∨ (s.clip.slot i).prot ≠ none)) → answers .noSegment)))

/-- CLIP_STOP: BUSY outside RECORDING and ROLLOVER_WAIT; in them the clip recorder becomes CLOSING, the accumulator
hands over its records as one chunk and closes, and a flush is requested with the last descriptor then queued as its
mark. With nothing queued and no record waiting in the accumulator the segment closes STOP at once, its stream length
the placement position, and the clip is over (R54, R55, R76, R95, R99). -/
def Obligations.ClipStop : Prop :=
  ∀ (s : State) (p : Packet), s.executes (.clipStop p) → p.payload = [] →
    (s.clip.state = .idle ∨ s.clip.state = .closing ∨ s.clip.state = .emergency →
      exec (.clipStop p) s = .next (s.served p .command id (.ready .busy [])).conclude) ∧
    (s.clip.state = .recording ∨ s.clip.state = .rolloverWait →
      let closing := fun (s' : State) => { s' with
        clip := { s'.clip with state := .closing }, frame := { s'.frame with accOpen := false, acc := [] } }
      let served := fun effect => exec (.clipStop p) s =
        .next (State.conclude (s.served p .command effect (.ready .ok [])))
      -- in every case, in terms of the hand-over and the flush request
      (let handed := fun (s' : State) => if s.frame.accOpen = true ∧ s.frame.acc ≠ []
          then (closing s').enqueueMotion s.frame.acc else closing s'
       served (fun s' => (handed s').requestFlush (handed s').buffer.lastQueued)) ∧
      -- the records handed over, which are the mark
      (s.frame.accOpen = true → s.frame.acc ≠ [] → s.buffer.queue.length < 256 → s.buffer.free ≠ [] →
        s.buffer.flush = none → (∀ d ∈ s.buffer.queue, d.seq ≠ s.buffer.nextSeq) →
        let payload := s.frame.acc.flatMap FrameRecord.bytes
        let need := (16 + payload.length + 4095) / 4096
        let pages := s.buffer.free.take need
        let stamp := (s.frame.acc.map FrameRecord.stamp).headD 0
        served (fun s' => { closing s' with buffer := { s.buffer with
          ram := ramStore pages 16 payload
            (ramStore pages 0 (chunkHeader .motion false payload.length s.buffer.nextSeq stamp) s.buffer.ram)
          free := s.buffer.free.drop need
          queue := s.buffer.queue ++ [{ seq := s.buffer.nextSeq, kind := .motion, key := false, hostTime := stamp,
                                        arrival := some s.now, length := payload.length, pages := pages, acked := 0,
                                        state := .ready, place := none }]
          nextSeq := s.buffer.nextSeq + 1, accepted := s.buffer.accepted + 1, flush := some s.buffer.nextSeq } })) ∧
      -- no record to hand over: the mark is the last descriptor queued
      (s.frame.acc = [] → s.buffer.queue = [] → served closing) ∧
      (∀ q c, s.frame.acc = [] → s.buffer.queue = q ++ [c] → c.place = none → (∀ d ∈ q, d.seq ≠ c.seq) →
        s.buffer.flush = none →
        served (fun s' => { closing s' with buffer := { s.buffer with flush := some c.seq } })) ∧
      -- nothing left to write: the clip is over
      (∀ f, s.clip.filling = some f → f.pending = none → f.slot < 64 → s.buffer.queue = [] → s.frame.acc = [] →
        ∃ t, exec (.clipStop p) s = .next t ∧ t.frame.accOpen = false ∧ t.frame.acc = [] ∧ t.buffer.queue = [] ∧
          t.clip = { s.clip with
            state := .idle, filling := none, closeCounter := s.clip.closeCounter + 1
            slots := s.clip.slots.setIfInBounds f.slot { s.clip.slot f.slot with
              state := .closed, endTime := some s.now, closeSeq := some (s.clip.closeCounter + 1),
              streamLen := f.placement, endReason := some .stop } }))

/-- FLUSH is answered OK in every state. With an empty queue no flush becomes pending; otherwise its mark is the last
descriptor of the queue, which is the later one of any flush already pending as well, and where that chunk's placement
ends the stream within a block the rest of the block is filled (R76, R77, R162). -/
def Obligations.FlushMarksLast : Prop :=
  ∀ (s : State) (p : Packet), s.executes (.flush p) → p.payload = [] →
    (s.buffer.queue = [] → exec (.flush p) s = .next (s.served p .command id (.ready .ok [])).conclude) ∧
    (∀ (q : List Chunk) (c : Chunk), s.buffer.queue = q ++ [c] → (∀ d ∈ q, d.seq ≠ c.seq) →
      (∀ m, s.buffer.flush = some m → ∃ d ∈ s.buffer.queue, d.seq = m) →
      let marked := fun (s' : State) => { s' with buffer := { s'.buffer with flush := some c.seq } }
      (c.place = none ∨ s.clip.filling = none →
        exec (.flush p) s = .next (s.served p .command marked (.ready .ok [])).conclude) ∧
      (∀ f o, s.clip.filling = some f → c.place = some o →
        (f.placement % 512 = 0 ∨ o + (16 + c.length) ≠ f.placement →
          exec (.flush p) s = .next (s.served p .command marked (.ready .ok [])).conclude) ∧
        (f.placement % 512 ≠ 0 → o + (16 + c.length) = f.placement →
          exec (.flush p) s = .next (State.conclude (s.served p .command (fun s' =>
            { marked s' with clip := { s'.clip with filling := some { f with
              placement := (f.placement / 512 + 1) * 512, fillers := f.fillers ++ [f.placement] } } })
            (.ready .ok []))))))

/-- SEGMENT_FREE by the state of its slot: BAD_ARG above 63 or EMPTY, BUSY where it is FILLING or protected, OK with
no effect where it is FREE, and otherwise OK with the slot FREE, its extent kept and everything else cleared.
SEGMENT_PROTECT and SEGMENT_UNPROTECT by the state of their slot and the number of protected slots (R86, R87). -/
def Obligations.SegmentCommands : Prop :=
  (∀ (s : State) (p : Packet) (b : Byte), s.executes (.segmentFree p) → p.payload = [b] →
    let x := s.clip.slot b.toNat
    let answers := fun code => exec (.segmentFree p) s = .next (s.served p .command id (.ready code [])).arbitrate
    (63 < b.toNat ∨ x.state = .empty → answers .badArg) ∧
    (b.toNat ≤ 63 → x.state = .filling → answers .busy) ∧
    (b.toNat ≤ 63 → x.state ≠ .empty → x.prot ≠ none → answers .busy) ∧
    (b.toNat ≤ 63 → x.state = .free → x.prot = none → answers .ok) ∧
    (b.toNat ≤ 63 → (x.state = .closed ∨ x.state = .interrupted ∨ x.state = .unusable) → x.prot = none →
      exec (.segmentFree p) s = .next (State.arbitrate (s.served p .command (fun s' => { s' with clip := { s'.clip with
        slots := s'.clip.slots.setIfInBounds b.toNat { x with
          state := .free, clip := none, firstSeq := none, lastSeq := none, startTime := none, endTime := none,
          streamLen := 0, skips := [], shocks := 0, closeSeq := none, endReason := none } } }) (.ready .ok []))))) ∧
  (∀ (s : State) (p q : Packet) (b : Byte), s.executes (.segmentProtect p) → s.executes (.segmentUnprotect q) →
    p.payload = [b] → q.payload = [b] →
    let x := s.clip.slot b.toNat
    let set := fun (p : Packet) (prot : Option Protection) => s.served p .command (fun s' => { s' with clip := { s'.clip with
      slots := s'.clip.slots.setIfInBounds b.toNat { x with prot := prot } } }) (.ready .ok [])
    let answers := fun c (p : Packet) code => exec c s = .next (s.served p .command id (.ready code [])).arbitrate
    let full := x.state = .filling ∨ x.state = .closed ∨ x.state = .interrupted
    (63 < b.toNat → answers (.segmentProtect p) p .badArg ∧ answers (.segmentUnprotect q) q .badArg) ∧
    (b.toNat ≤ 63 →
      (¬full → answers (.segmentProtect p) p .badArg) ∧
      (full → x.prot ≠ none → answers (.segmentProtect p) p .ok) ∧
      (full → x.prot = none → s.clip.cfg.protectLimit ≤ s.clip.protectedCount → answers (.segmentProtect p) p .limit) ∧
      (full → x.prot = none → s.clip.protectedCount < s.clip.cfg.protectLimit →
        exec (.segmentProtect p) s = .next (set p (some .host)).arbitrate) ∧
      exec (.segmentUnprotect q) s = .next (set q none).arbitrate))

/-! ### Motion, charging and part-wide commands -/

/-- MOTION_START: BUSY while motion is active. With motion stopped a session starts: both monitors keep their cadence
and begin afresh, the integrators, the gap's last sample and the shock detector are set up again, and the frame
numbers start over. With the port free it is in INIT, writing the first pair or waiting for the settle time measured
from now, with the answer outstanding; with no pair and no settle time it is IDLE and the answer is OK at once. With a
transaction of the stopped session still running, that transaction goes on and the answer is outstanding; what its end
does is stated in `StopAtTransactionEnd` (R7, R16, R20, R31, R47, R48, R52, R58). That such a MOTION_START is taken at
once is read from the spec by inference (notes/assumptions/20.md). -/
def Obligations.MotionStart : Prop :=
  ∀ (s : State) (p : Packet), s.executes (.motionStart p) → p.payload = [] →
    let begun := fun (u : ImuPort) (s' : State) => ({ s' with
      capture := { s'.capture with
        fs := { s'.capture.fs with lockRun := 0, edgeSeen := false,
                                   deadline := some (later s.now (4 * s.motion.lens.active.framePeriod)) }
        dr := { s'.capture.dr with lockRun := 0, edgeSeen := false,
                                   deadline := some (later s.now (4 * s.imu.cfg.period)) } }
      imu := u
      motion := { s'.motion with
        axes := ⟨.reset, .reset, .reset⟩
        gap := { s'.motion.gap with lastGood := none, lastRates := ⟨0, 0, 0⟩ }
        shock := { s'.motion.shock with armed := true, highRun := 0, lowRun := 0 } }
      frame := { s'.frame with record := none, inFrame := false, lateFlags := .clear, lateShocks := 0,
                               lastNumber := none } } : State)
    let settled := later s.now (1000 * s.imu.cfg.settleMs)
    (s.imu.active = true → exec (.motionStart p) s = .next (s.served p .command id (.ready .busy [])).arbitrate) ∧
    (s.imu.active = false → s.imu.txn = none → s.imu.cfg.settleMs ≤ 100 → ∃ u ans, exec (.motionStart p) s =
        .next (State.arbitrate (s.served p .command (fun s' => { begun u s' with
          link := if ans = .ready .ok [] then { s'.link with outstanding := s'.link.outstanding.map (fun r =>
            if r.answer = .awaitStart then { r with answer := .ready .ok [] } else r) } else s'.link }) ans)) ∧
      u = { s.imu with active := true, state := u.state, txn := u.txn, settleDue := u.settleDue } ∧
      (∀ a v rest, s.imu.cfg.pairs = (a, v) :: rest →
        ans = .awaitStart ∧ u.state = .init ∧ u.txn = some (.write 0 (a &&& 0x7F) v)) ∧
      (s.imu.cfg.pairs = [] → 0 < s.imu.cfg.settleMs →
        ans = .awaitStart ∧ u.state = .init ∧ u.txn = none ∧ u.settleDue = some settled) ∧
      (s.imu.cfg.pairs = [] → s.imu.cfg.settleMs = 0 → ans = .ready .ok [] ∧ u.state = .idle ∧ u.txn = none)) ∧
    (∀ x, s.imu.active = false → s.imu.txn = some x → exec (.motionStart p) s = .next (State.arbitrate
      (s.served p .command (begun { s.imu with active := true, settleDue := some settled }) .awaitStart)))

/-- MOTION_STOP: BUSY while a clip is open, OK with no effect while motion is stopped. Otherwise motion stops: the
deadlines and the bands go, waiting copies become active with the axes brought into line where a LENS copy does, the
record under construction is dropped, a MOTION_START not yet answered is answered BUSY, and the port is STOPPED with
the answer OK, or first runs its transaction to the end (R7, R13, R17, R20, R27, R42, R45, R52, R162). That a
MOTION_START that waits for a stopped session's transaction is answered BUSY, and this MOTION_STOP waits for it as
well, is read from the spec by inference (notes/assumptions/20.md). -/
def Obligations.MotionStop : Prop :=
  ∀ (s : State) (p : Packet), s.executes (.motionStop p) → p.payload = [] →
    (s.clip.state ≠ .idle →
      exec (.motionStop p) s = .next (s.served p .command id (.ready .busy [])).arbitrate) ∧
    (s.clip.state = .idle → s.imu.active = false →
      exec (.motionStop p) s = .next (s.served p .command id (.ready .ok [])).arbitrate) ∧
    (s.clip.state = .idle → s.imu.active = true → exec (.motionStop p) s =
      .next (State.arbitrate (s.served p .command (fun s' => { s' with
        capture := { s'.capture with fs := { s'.capture.fs with deadline := none },
                                     dr := { s'.capture.dr with deadline := none }, bands := [] }
        imu := if s.imu.txn = none then { s'.imu with active := false, settleDue := none, state := .stopped }
          else { s'.imu with active := false, settleDue := none, stale := true }
        motion :=
          let m := { s'.motion with bias := ⟨s.motion.bias.newest, none⟩, mount := ⟨s.motion.mount.newest, none⟩,
                                    lens := ⟨s.motion.lens.newest, none⟩ }
          if s.motion.lens.pending = none then m
          else { m with axes := ⟨s.motion.axes.yaw.lineUp s.motion.lens.newest.axes.yaw,
            s.motion.axes.pitch.lineUp s.motion.lens.newest.axes.pitch,
            s.motion.axes.roll.lineUp s.motion.lens.newest.axes.roll⟩ }
        frame := { s'.frame with record := none, inFrame := false, lateFlags := .clear, lateShocks := 0 }
        link := { s'.link with outstanding := s'.link.outstanding.map (fun r =>
          if r.answer = .awaitStart then { r with answer := .ready .busy [] } else r) } })
        (if s.imu.txn = none then .ready .ok [] else .awaitStop))))

/-- CHARGE_INHIBIT sets the flag and the cause, and a charging stage enters HOLD at once with its resume stage, the
setpoint and the ceiling 0, and CHARGE_STATE; CHARGE_ALLOW clears them, and HOLD is left for its resume stage where no
other cause stands, with CHARGE_STATE on FULL, and stays where one does; CHARGE_CLEAR takes FAULT to IDLE; elsewhere
none changes more than the flag and the cause. Each is answered OK (R128, R130, R131, R134, R135, R137, R138, R139,
R141). That a resume at FULL sets the gauge is read from the spec by inference (notes/assumptions/18.md). -/
def Obligations.ChargeCommands : Prop :=
  ∀ (s : State) (p : Packet), p.payload = [] →
    let c := s.charge
    let served := fun i effect => exec i s = .next (State.arbitrate (s.served p .command effect (.ready .ok [])))
    -- a stage is entered at once, with CHARGE_STATE for FULL, HOLD and FAULT
    let entered := fun (after : ChargeController) (s' : State) => State.raiseIf { s' with
        charge := { after with
          runCount := 0, fault := none
          safety := if after.stage = .qualify then 0 else c.safety
          elapsed := if c.stage = .precharge ∨ c.stage = .hold ∧ after.stage = .precharge then c.elapsed else 0
          ovLimit := if after.stage = .fault then none else c.ovLimit
          ceiling := after.stageCeiling }
        budget := { s'.budget with
          setpoint := if after.stage = .precharge ∨ after.stage = .fast ∨ after.stage = .taper ∨ after.stage = .topOff
            then s.budget.setpoint else 0
          charge := if after.stage = .full then s.budget.cfg.capacity.toNat * 360000 else s.budget.charge
          estimated := if after.stage = .full then false else s.budget.estimated } }
      (decide (after.stage = .full ∨ after.stage = .hold ∨ after.stage = .fault))
      (.chargeState after.stage none (if after.stage = .hold then after.causes else .clear) s.budget.readings.vbat)
    let inhibited := { c with inhibit := true, causes := { c.causes with inhibit := true } }
    let allowed := { c with inhibit := false, causes := { c.causes with inhibit := false } }
    let others := c.causes.temp = true ∨ c.causes.thermal = true ∨ c.causes.profile = true ∨ c.causes.overVoltage = true
    (s.executes (.chargeInhibit p) →
      (c.stage = .idle ∨ c.stage = .hold ∨ c.stage = .fault →
        served (.chargeInhibit p) (fun s' => { s' with charge := inhibited })) ∧
      (c.stage ≠ .idle → c.stage ≠ .hold → c.stage ≠ .fault →
        served (.chargeInhibit p) (entered { inhibited with
          stage := .hold
          resume := if c.causes.profile = true then .qualify else match c.stage with
            | .precharge => .precharge | .fast | .taper | .topOff => .fast | .full => .full | _ => .qualify }))) ∧
    (s.executes (.chargeAllow p) →
      (c.stage ≠ .hold ∨ others → served (.chargeAllow p) (fun s' => { s' with charge := allowed })) ∧
      (c.stage = .hold → ¬others → served (.chargeAllow p) (entered { allowed with stage := c.resume }))) ∧
    (s.executes (.chargeClear p) →
      (c.stage = .fault → served (.chargeClear p) (entered { c with stage := .idle })) ∧
      (c.stage ≠ .fault → served (.chargeClear p) id))

/-- INPUT_LIMIT stores its value clamped to 100..5000; LOG_CLEAR empties the log and the suppression set and keeps the
counts; STATUS is answered with the snapshot of the state at that moment, with the zone in force in it. Before a zone
is in force its byte is left open (notes/assumptions/3.md). The snapshot is 240 bytes, and each field of the state
stands at its offset in its size, signed fields sign-extended, with zeros where no field is (R117, R146, R163, R173,
R177). That the snapshot counts its own request is read from the spec by inference (notes/assumptions/19.md). -/
def Obligations.PlainCommands : Prop :=
  (∀ (s : State) (p : Packet),
    (∀ a b, s.executes (.inputLimit p) → p.payload = [a, b] →
      let v : Int := (a.toNat + 256 * b.toNat : Nat)
      exec (.inputLimit p) s = .next (State.arbitrate (s.served p .command (fun s' => { s' with
        budget := { s'.budget with inputLimit := if v < 100 then 100 else if 5000 < v then 5000 else v } })
        (.ready .ok [])))) ∧
    (s.executes (.logClear p) → p.payload = [] →
      exec (.logClear p) s = .next (State.arbitrate (s.served p .command (fun s' => { s' with
        card := { s'.card with log := [], suppressed := [] } }) (.ready .ok [])))) ∧
    (s.executes (.status p) → p.payload = [] →
      let data := State.snapshotWith { s with link := { s.link with parked := false, parser := .header } }
      (∀ z, s.charge.zone = some z → exec (.status p) s = .next (State.arbitrate (s.served p .command id
        (.ready .ok (data (BitVec.ofNat 8 ([Zone.cold, .cool, .normal, .warm, .hot].idxOf z))))))) ∧
      (s.charge.zone = none → ∃ b, exec (.status p) s = .next (State.arbitrate (s.served p .command
        (fun s' => { s' with freeCount := s.freeCount + 1 }) (.ready .ok (data b))))))) ∧
  -- the 240 bytes: each field's first byte, its size and its value
  (∀ (s : State) (zone : Byte),
    let bit := fun (b : Bool) => if b then (1 : Int) else 0
    let time := fun (o : Option Time) => ((o.getD 0).toNat : Int)
    let m := s.motion
    let b := s.buffer
    let c := s.card
    let h := s.charge
    let stages := [Stage.idle, .qualify, .precharge, .fast, .taper, .topOff, .full, .hold, .fault]
    let g := s.budget
    let record := fun (k : Nat) (x : Capture) => ([(k, 8, (x.last.toNat : Int)), (k + 8, 8, (x.prev.toNat : Int)),
      (k + 16, 4, (x.count.toNat : Int)), (k + 20, 1, if x.cadence = .locked then 1 else 0),
      (k + 21, 3, 0)] : List (Nat × Nat × Int))
    let fields : List (Nat × Nat × Int) := record 0 s.capture.fs ++ record 24 s.capture.dr ++ [
      (48, 4, (s.imu.overruns.toNat : Int)), (52, 2, m.lastTemp),
      (54, 1, ([PortState.stopped, .init, .idle, .reading].idxOf s.imu.state : Int)),
      (55, 1, bit m.lens.pending.isSome + 2 * bit m.bias.pending.isSome + 4 * bit m.mount.pending.isSome),
      (56, 4, (m.gap.count.toNat : Int)), (60, 8, time m.gap.lastGood),
      (68, 8, m.axes.yaw.err), (76, 2, m.axes.yaw.disp), (78, 8, m.axes.pitch.err), (86, 2, m.axes.pitch.disp),
      (88, 8, m.axes.roll.err), (96, 2, m.axes.roll.disp),
      (98, 4, (s.frame.withheld.toNat : Int)), (102, 4, (m.shock.total.toNat : Int)), (106, 1, bit (!m.shock.armed)),
      (107, 1, 0)] ++ [
      (108, 4, (b.accepted.toNat : Int)), (112, 4, (b.written.toNat : Int)), (116, 4, (b.discarded.toNat : Int)),
      (120, 4, (b.mediaDiscard.toNat : Int)), (124, 4, (b.motionDrop.toNat : Int)), (128, 2, (b.free.length : Int)),
      (130, 2, ((256 - b.queue.length : Nat) : Int)), (132, 4, (b.pendingBytes : Int)), (136, 1, bit b.hold),
      (137, 1, bit b.flush.isSome), (138, 2, 0),
      (140, 1, ([ClipState.idle, .recording, .rolloverWait, .closing, .emergency].idxOf s.clip.state : Int)),
      (141, 1, ((s.clip.filling.map Filling.slot).getD 255 : Int)), (142, 2, 0),
      (144, 4, (s.clip.protectRefused.toNat : Int))] ++ [
      (148, 1, ([CardState.absent, .init, .ready, .sleep, .run, .recover, .yielded, .fault].idxOf c.state : Int)),
      (149, 1, bit c.present), (150, 1, ([Grant.none, .pending, .held].idxOf g.grant : Int)),
      (151, 1, (c.recovery : Int)), (152, 1, bit c.shockHold.isSome), (153, 1, (c.badList.length : Int)), (154, 2, 0),
      (156, 4, (c.capacity.toNat : Int)), (160, 4, (c.corrected.toNat : Int)), (164, 4, (c.overflow.toNat : Int)),
      (168, 4, (c.logSeq.toNat : Int))] ++ [
      (172, 1, (stages.idxOf h.stage : Int)), (173, 1, ([none, some ChargeFault.battery, some .timer].idxOf h.fault : Int)),
      (174, 1, bit h.causes.temp + 2 * bit h.causes.inhibit + 4 * bit h.causes.thermal + 8 * bit h.causes.profile +
        16 * bit h.causes.overVoltage),
      (175, 1, (stages.idxOf h.resume : Int)), (176, 1, bit h.inhibit), (177, 1, (zone.toNat : Int)),
      (178, 1, ([DieLevel.ok, .warn, .crit].idxOf h.die : Int)), (179, 1, 0), (180, 2, (h.runCount : Int)),
      (182, 4, (h.elapsed : Int)), (186, 2, h.ceiling), (188, 8, (h.safety : Int))] ++ [
      (196, 4, (g.updates.toNat : Int)), (200, 2, g.readings.vbat), (202, 2, g.readings.ibat), (204, 2, g.readings.vin),
      (206, 2, g.readings.iin), (208, 2, g.readings.tbat), (210, 2, g.readings.tdie), (212, 2, g.setpoint),
      (214, 2, g.limitEff), (216, 2, g.inputLimit), (218, 2, g.cfg.capacity), (220, 4, (g.charge : Int)),
      (224, 1, ((g.charge * 100 / (g.cfg.capacity.toNat * 360000) : Nat) : Int)), (225, 1, bit g.estimated),
      (226, 1, bit g.inputPresent), (227, 1, (g.lowRun : Int)), (228, 1, bit g.lowState), (229, 1, bit g.ordered),
      (230, 2, 0)] ++ [
      (232, 1, bit s.link.parked), (233, 1, ((s.link.outstanding.length + 1 : Nat) : Int)),
      (234, 1, (s.link.notices.length : Int)), (235, 1, 0), (236, 4, (s.link.overruns.toNat : Int))]
    (s.snapshotWith zone).length = 240 ∧
    ∀ k n v, (k, n, v) ∈ fields → (leNat (((s.snapshotWith zone).drop k).take n) : Int) = v % 256 ^ n)

/-- CARD_RETRY: OK in FAULT, where INIT begins with IDENTIFY; NO_CARD in ABSENT; BUSY in the other states. PARK: OK
with the clip recorder IDLE and motion stopped, with SLEEP sent to a READY card whose bus is free; BUSY otherwise
(R103, R105, R115, R123, R168). That the recovery count stays as it is until the INIT succeeds is read from the spec
by inference (notes/assumptions/8.md), and so is that PARK sends SLEEP only where the bus is free
(notes/assumptions/12.md). -/
def Obligations.CardRetryAndPark : Prop :=
  ∀ (s : State) (p : Packet),
    let answers := fun c code => exec c s = .next (s.served p .command id (.ready code [])).arbitrate
    (s.executes (.cardRetry p) → p.payload = [] →
      (s.card.state = .fault → exec (.cardRetry p) s = .next (State.arbitrate (s.served p .command (fun s' => { s' with
        card := { s'.card with
          state := .init, run := none, ident := some { origin := .cardRetry, attempt := 1, capacity := none }
          bus := some { op := .identify, deadline := later s.now 50000 } } }) (.ready .ok [])))) ∧
      (s.card.state = .absent → answers (.cardRetry p) .noCard) ∧
      (s.card.state ≠ .fault → s.card.state ≠ .absent → answers (.cardRetry p) .busy)) ∧
    (s.executes (.park p) → p.payload = [] →
      (s.clip.state ≠ .idle ∨ s.imu.active = true → answers (.park p) .busy) ∧
      (s.clip.state = .idle → s.imu.active = false →
        (s.card.state = .ready → s.card.bus = none →
          exec (.park p) s = .next (State.arbitrate (s.served p .command (fun s' => { s' with
            link := { s'.link with parked := true }
            card := { s'.card with bus := some { op := .sleep, deadline := later s.now 50000 } } }) (.ready .ok [])))) ∧
        (s.card.state ≠ .ready ∨ s.card.bus ≠ none →
          exec (.park p) s = .next (State.arbitrate (s.served p .command (fun s' => { s' with
            link := { s'.link with parked := true } }) (.ready .ok []))))))

/-! ### Tables -/

/-- Loads of BIAS, LENS and MOUNT, whole or in part: the entries loaded stand over the table's newest contents. BIAS
and LENS read them as signed little-endian words, each BIAS point clamped, each LENS field brought into range and the
band count a power of two, 1 for a count of 0 or below; MOUNT reads an axis code and a sign code and is BAD_ARG with
nothing changed unless the result names three different axes with proper signs. Each lands in the pending copy while
motion is active and in the active copy while it is stopped, where a LENS copy brings the axes into line (R9, R22,
R25, R27, R33, R42, R164, R176). -/
def Obligations.MotionTables : Prop :=
  ∀ (s : State) (p : Packet) (first n : Nat), p.header.firstEntry = first →
    p.header.entryCount = n → n ≠ 0 →
    let words := (List.range n).map (fun k => (BitVec.ofNat 32 (leNat ((p.payload.drop (4 * k)).take 4))).toInt)
    (s.executes (.biasLoad p) → first + n ≤ 27 → p.payload.length = 4 * n → s.motion.bias.newest.length = 27 →
      ∃ v : List Int, v.length = 27 ∧
      (∀ k, k < 27 → v[k]? = if first ≤ k ∧ k < first + n then (words[k - first]?).map (clampInt (-65536) 65535)
        else s.motion.bias.newest[k]?) ∧
      exec (.biasLoad p) s = .next (State.arbitrate (s.served p .tableLoad (fun s' => { s' with
        motion := { s'.motion with bias := if s.imu.active then ⟨s.motion.bias.active, some v⟩ else ⟨v, none⟩ } })
        (.ready .ok [])))) ∧
    (s.executes (.lensLoad p) → first + n ≤ 13 → p.payload.length = 4 * n → ∃ l : Lens,
      let cur := s.motion.lens.newest
      let entry := fun k => if first ≤ k ∧ k < first + n then words.getD (k - first) 0
        else List.getD [(cur.framePeriod : Int), cur.bands, cur.readout, cur.latchOffset,
          cur.axes.yaw.shift, cur.axes.yaw.margin, cur.axes.yaw.gain,
          cur.axes.pitch.shift, cur.axes.pitch.margin, cur.axes.pitch.gain,
          cur.axes.roll.shift, cur.axes.roll.margin, cur.axes.roll.gain] k 0
      (l.framePeriod : Int) = clampInt 4000 100000 (entry 0) ∧
      (l.readout : Int) = clampInt 1000 50000 (entry 2) ∧
      l.latchOffset = clampInt (-20000) 20000 (entry 3) ∧
      (∀ a k, (a, k) ∈ [(l.axes.yaw, 4), (l.axes.pitch, 7), (l.axes.roll, 10)] →
        ((a.shift : Nat) : Int) = clampInt 1 15 (entry k) ∧
        ((a.margin : Nat) : Int) = clampInt 0 (2 ^ 30) (entry (k + 1)) ∧
        ((a.gain : Nat) : Int) = clampInt 0 1048575 (entry (k + 2))) ∧
      (∃ e, e ≤ 4 ∧ l.bands = 2 ^ e ∧ (entry 1 ≤ 0 → e = 0) ∧ (1 ≤ entry 1 → (l.bands : Int) ≤ entry 1) ∧
        (entry 1 < 2 * l.bands ∨ e = 4)) ∧
      exec (.lensLoad p) s = .next (State.arbitrate (s.served p .tableLoad (fun s' => { s' with
        motion := if s.imu.active then { s'.motion with lens := ⟨s.motion.lens.active, some l⟩ }
          else { s'.motion with
            lens := ⟨l, none⟩
            axes := ⟨s.motion.axes.yaw.lineUp l.axes.yaw, s.motion.axes.pitch.lineUp l.axes.pitch,
              s.motion.axes.roll.lineUp l.axes.roll⟩ } }) (.ready .ok [])))) ∧
    (s.executes (.mountLoad p) → first + n ≤ 3 → p.payload.length = 2 * n →
      let code := fun k (cur : MountSource) => if first ≤ k ∧ k < first + n then
          ((p.payload.getD (2 * (k - first)) 0).toNat, (p.payload.getD (2 * (k - first) + 1) 0).toNat)
        else (cur.axis, cur.negative.toNat)
      let a := code 0 s.motion.mount.newest.yaw
      let b := code 1 s.motion.mount.newest.pitch
      let c := code 2 s.motion.mount.newest.roll
      (a.1 ≤ 2 → b.1 ≤ 2 → c.1 ≤ 2 → a.2 ≤ 1 → b.2 ≤ 1 → c.2 ≤ 1 → a.1 ≠ b.1 → a.1 ≠ c.1 → b.1 ≠ c.1 →
        let v : Tri MountSource := ⟨⟨a.1, decide (a.2 = 1)⟩, ⟨b.1, decide (b.2 = 1)⟩, ⟨c.1, decide (c.2 = 1)⟩⟩
        exec (.mountLoad p) s = .next (State.arbitrate (s.served p .tableLoad (fun s' => { s' with
          motion := { s'.motion with mount := if s.imu.active then ⟨s.motion.mount.active, some v⟩ else ⟨v, none⟩ } })
          (.ready .ok [])))) ∧
      (2 < a.1 ∨ 2 < b.1 ∨ 2 < c.1 ∨ 1 < a.2 ∨ 1 < b.2 ∨ 1 < c.2 ∨ a.1 = b.1 ∨ a.1 = c.1 ∨ b.1 = c.1 →
        exec (.mountLoad p) s = .next (s.served p .tableLoad id (.ready .badArg [])).arbitrate))

/-- Loads of MOTION_CFG, WINDOW and CLIP_CFG. MOTION_CFG is BUSY while motion is active, BAD_ARG with an init count
outside 0..16 or a pair address above 127, and otherwise stored with every field brought into range. WINDOW is BUSY
unless the clip recorder is IDLE, and otherwise writes the words it names and no other bit. CLIP_CFG, whole or in
part, stands over the table's contents; it is BUSY unless the clip recorder is IDLE, BAD_ARG with a granule size code
outside 0..3, LIMIT with a protect limit below the number of protected slots, and otherwise stored with every field
brought into range, the area base as the unsigned word (R14, R53, R56, R74, R75, R81, R83, R120, R121, R164). -/
def Obligations.SensorAndClipTables : Prop :=
  (∀ (s : State) (p : Packet) (n : Nat), p.header.entryCount = n → n ≠ 0 → p.payload.length = 4 * n →
    let words := (List.range n).map (fun k => (BitVec.ofNat 32 (leNat ((p.payload.drop (4 * k)).take 4))).toInt)
    let pairs := ((List.range n).drop 8).map (fun k => ((p.payload.getD (4 * k) 0, p.payload.getD (4 * k + 1) 0)))
    let answers := fun c code => exec c s = .next (s.served p .tableLoad id (.ready code [])).arbitrate
    (s.executes (.motionCfgLoad p) → p.header.firstEntry = 0 → 8 ≤ n → n ≤ 24 →
      ((words.getD 7 0 < 0 ∨ 16 < words.getD 7 0) → s.imu.active = false → answers (.motionCfgLoad p) .badArg) ∧
      ((n : Int) = 8 + words.getD 7 0 →
        (s.imu.active = true → answers (.motionCfgLoad p) .busy) ∧
        (s.imu.active = false → (∃ q ∈ pairs, 127 < q.1.toNat) → answers (.motionCfgLoad p) .badArg) ∧
        (s.imu.active = false → (∀ q ∈ pairs, q.1.toNat ≤ 127) → ∃ c : MotionCfg,
          (c.rate : Int) = (if words.getD 0 0 < 2000 then 1000 else if words.getD 0 0 < 4000 then 2000 else 4000) ∧
          (c.spiClock : Int) = clampInt 1 16 (words.getD 1 0) ∧ (c.address : Int) = clampInt 0 127 (words.getD 2 0) ∧
          (c.settleMs : Int) = clampInt 0 100 (words.getD 3 0) ∧ (c.shockT : Int) = clampInt 1 32767 (words.getD 4 0) ∧
          (c.shockRun : Int) = clampInt 1 16 (words.getD 5 0) ∧ (c.rearm : Int) = clampInt 1 1023 (words.getD 6 0) ∧
          c.pairs = pairs ∧
          exec (.motionCfgLoad p) s = .next (State.arbitrate (s.served p .tableLoad (fun s' => { s' with
            imu := { s'.imu with cfg := c } }) (.ready .ok [])))))) ∧
    (s.executes (.windowLoad p) → p.header.firstEntry + n ≤ 1024 →
      (s.clip.state ≠ .idle → answers (.windowLoad p) .busy) ∧
      (s.clip.state = .idle → ∃ w : BitVec 32768,
        (∀ i, i < 32768 → w.getLsbD i = if p.header.firstEntry ≤ i / 32 ∧ i / 32 < p.header.firstEntry + n then
          (leNat ((p.payload.drop (4 * (i / 32 - p.header.firstEntry))).take 4)).testBit (i % 32)
          else s.clip.window.getLsbD i) ∧
        exec (.windowLoad p) s = .next (State.arbitrate (s.served p .tableLoad (fun s' => { s' with
          clip := { s'.clip with window := w } }) (.ready .ok [])))))) ∧
  (∀ (s : State) (p : Packet) (first n : Nat), s.executes (.clipCfgLoad p) → p.header.firstEntry = first →
    p.header.entryCount = n → n ≠ 0 → first + n ≤ 11 → p.payload.length = 4 * n →
    let cur := s.clip.cfg
    let entry := fun k => if first ≤ k ∧ k < first + n
      then (BitVec.ofNat 32 (leNat ((p.payload.drop (4 * (k - first))).take 4))).toInt
      else List.getD [(cur.areaBase : Int), cur.sizeCode, cur.allowance, cur.protectLimit, cur.preEventS,
        cur.emergencyBudget, cur.perChunk, cur.batchKiB, cur.latencyMs, if cur.sleepEnable then 1 else 0,
        cur.shockHoldMs] k 0
    let limit := clampInt 0 32 (entry 3)
    let answers := fun code => exec (.clipCfgLoad p) s = .next (s.served p .tableLoad id (.ready code [])).arbitrate
    (s.clip.state ≠ .idle → answers .busy) ∧
    (s.clip.state = .idle →
      (entry 1 < 0 ∨ 3 < entry 1 → answers .badArg) ∧
      (0 ≤ entry 1 → entry 1 ≤ 3 → limit < s.clip.protectedCount → answers .limit) ∧
      (0 ≤ entry 1 → entry 1 ≤ 3 → (s.clip.protectedCount : Int) ≤ limit → ∃ c : ClipCfg,
        c.areaBase = (if first = 0 then leNat (p.payload.take 4) else cur.areaBase % 2 ^ 32) ∧
        (c.sizeCode : Int) = entry 1 ∧
        (c.allowance : Int) = clampInt 0 65535 (entry 2) ∧ (c.protectLimit : Int) = limit ∧
        (c.preEventS : Int) = clampInt 0 60 (entry 4) ∧ (c.emergencyBudget : Int) = clampInt 0 65535 (entry 5) ∧
        (c.perChunk : Int) = clampInt 1 30 (entry 6) ∧ (c.batchKiB : Int) = clampInt 64 1024 (entry 7) ∧
        (c.latencyMs : Int) = clampInt 50 2000 (entry 8) ∧ (c.sleepEnable = true ↔ entry 9 ≠ 0) ∧
        (c.shockHoldMs : Int) = clampInt 0 500 (entry 10) ∧
        exec (.clipCfgLoad p) s = .next (State.arbitrate (s.served p .tableLoad (fun s' => { s' with
          clip := { s'.clip with cfg := c } }) (.ready .ok []))))))

/-- A SEGMENT load, checked as a whole: BUSY where any entry names a slot that is neither EMPTY nor FREE; otherwise
BAD_ARG where any entry names a slot above 63, an extent outside the map, of no granules or more than 4096, on a
granule that may not be written, shared with another slot that is not EMPTY, or the slot or a granule of another
entry; and otherwise OK with every slot named FREE on its new extent and no other changed (R85). That the extents
compared are those that stand before the load, of slots that the load itself moves among them, is read from the spec
by inference (notes/assumptions/23.md). -/
def Obligations.SegmentLoad : Prop :=
  ∀ (s : State) (p : Packet) (n : Nat), s.executes (.segmentLoad p) → p.header.entryCount = n → 1 ≤ n → n ≤ 64 →
    p.payload.length = 6 * n →
    let byte := fun (k j : Nat) => (p.payload.getD (6 * k + j) 0).toNat
    let slot := fun k => byte k 0
    let first := fun k => byte k 2 + 256 * byte k 3
    let count := fun k => byte k 4 + 256 * byte k 5
    let x := fun k => s.clip.slot (slot k)
    let shares := fun (k a ca : Nat) => first k < a + ca ∧ a < first k + count k
    let busy := ∃ k, k < n ∧ slot k < 64 ∧ (x k).state ≠ .empty ∧ (x k).state ≠ .free
    let bad := ∃ k, k < n ∧ (63 < slot k ∨ count k = 0 ∨ 4096 < count k ∨ 32768 < first k + count k ∨
      (∃ g, first k ≤ g ∧ g < first k + count k ∧ s.granuleWritable g = false) ∨
      (∃ j, j < 64 ∧ j ≠ slot k ∧ (s.clip.slot j).state ≠ .empty ∧
        shares k (s.clip.slot j).first (s.clip.slot j).count) ∨
      ∃ j, j < n ∧ j ≠ k ∧ (slot j = slot k ∨ shares k (first j) (count j)))
    let answers := fun code => exec (.segmentLoad p) s = .next (s.served p .tableLoad id (.ready code [])).arbitrate
    (busy → answers .busy) ∧
    (¬busy → bad → answers .badArg) ∧
    (¬busy → ¬bad → ∃ v : Vector Slot 64,
      (∀ k, k < n → v[slot k]? = some { x k with
        state := .free, first := first k, count := count k, prot := none, clip := none, firstSeq := none,
        lastSeq := none, startTime := none, endTime := none, streamLen := 0, skips := [], shocks := 0,
        closeSeq := none, endReason := none }) ∧
      (∀ i, i < 64 → (∀ k, k < n → slot k ≠ i) → v[i]? = s.clip.slots[i]?) ∧
      exec (.segmentLoad p) s = .next (State.arbitrate (s.served p .tableLoad (fun s' => { s' with
        clip := { s'.clip with slots := v } }) (.ready .ok []))))

/-- Loads of CHARGE_PROFILE, OCV and BUDGET_CFG: each writes its entries over the table's contents, clamps, and is
BAD_ARG with nothing changed where the result breaks the table's order. A stored profile holds a charging stage with
PROFILE and QUALIFY as the resume stage, with CHARGE_STATE where HOLD is entered; a stored OCV asks for a fresh
estimate while the charge is ESTIMATED; a new capacity rescales the charge and sets ESTIMATED (R125, R128, R135, R145,
R151, R153, R154). -/
def Obligations.PowerTables : Prop :=
  ∀ (s : State) (p : Packet) (first n : Nat), p.header.firstEntry = first →
    p.header.entryCount = n → n ≠ 0 → p.payload.length = 4 * n →
    let words := (List.range n).map (fun k => (BitVec.ofNat 32 (leNat ((p.payload.drop (4 * k)).take 4))).toInt)
    let merged := fun cur : List Int => cur.take first ++ words ++ cur.drop (first + n)
    let clamped := fun (ranges : List (Int × Int)) (e : List Int) => ranges.zipWith (fun r x => clampInt r.1 r.2 x) e
    let answers := fun c code => exec c s = .next (s.served p .tableLoad id (.ready code [])).arbitrate
    (s.executes (.chargeProfileLoad p) → first + n ≤ 23 →
      let fields := fun (v : ChargeProfile) => [v.coolCurrent, v.coolVoltage, v.normalCurrent, v.normalVoltage,
        v.warmCurrent, v.warmVoltage, v.preThreshold, v.preCurrent, v.preMinutes, v.fastMinutes, v.termination,
        v.topOffMinutes, v.rechargeDrop, v.rampStep, v.rampMs, v.backOff, v.t0, v.t1, v.t2, v.t3, v.hysteresis,
        v.tWarn, v.tCrit]
      let ranges := [(0, 4000), (3800, 4400), (50, 4000), (3800, 4400), (0, 4000), (3800, 4400), (2500, 3600),
        (10, 500), (1, 120), (10, 600), (10, 1000), (0, 120), (50, 400), (10, 500), (10, 1000), (10, 1000),
        (-400, 1000), (-400, 1000), (-400, 1000), (-400, 1000), (0, 100), (500, 1400), (600, 1500)]
      ∃ v : ChargeProfile, fields v = clamped ranges (merged (fields s.charge.profile)) ∧
      (¬(v.t0 < v.t1 ∧ v.t1 < v.t2 ∧ v.t2 < v.t3 ∧ v.tWarn < v.tCrit) → answers (.chargeProfileLoad p) .badArg) ∧
      (v.t0 < v.t1 → v.t1 < v.t2 → v.t2 < v.t3 → v.tWarn < v.tCrit →
        let stored := fun effect => exec (.chargeProfileLoad p) s =
          .next (State.arbitrate (s.served p .tableLoad effect (.ready .ok [])))
        let held := { s.charge with
          profile := v, resume := .qualify, causes := { s.charge.causes with profile := true } }
        (s.charge.stage = .idle ∨ s.charge.stage = .fault →
          stored (fun s' => { s' with charge := { s.charge with profile := v } })) ∧
        (s.charge.stage = .hold → stored (fun s' => { s' with charge := held })) ∧
        (s.charge.stage ≠ .idle → s.charge.stage ≠ .fault → s.charge.stage ≠ .hold →
          stored (fun s' => State.raise { s' with
            charge := { held with
              stage := .hold, runCount := 0, fault := none, ceiling := 0
              elapsed := if s.charge.stage = .precharge then s.charge.elapsed else 0 }
            budget := { s'.budget with setpoint := 0 } } (.chargeState .hold none held.causes s.budget.readings.vbat))))) ∧
    (s.executes (.ocvLoad p) → first + n ≤ 11 → s.budget.ocv.length = 11 → ∃ v : List Int, v.length = 11 ∧
      (∀ k, k < 11 → v[k]? = if first ≤ k ∧ k < first + n then (words[k - first]?).map (clampInt 2500 4500)
        else s.budget.ocv[k]?) ∧
      (v.Pairwise (· < ·) → exec (.ocvLoad p) s = .next (State.arbitrate (s.served p .tableLoad (fun s' => { s' with
        budget := { s'.budget with ocv := v, estimateDue := s.budget.estimateDue || s.budget.estimated } })
        (.ready .ok [])))) ∧
      (¬v.Pairwise (· < ·) → answers (.ocvLoad p) .badArg)) ∧
    (s.executes (.budgetCfgLoad p) → first + n ≤ 9 →
      let fields := fun (c : BudgetCfg) => [c.presentMv, c.absentMv, c.vinMin, c.headroom, c.band, c.burstReserve,
        c.capacity, c.closeReserve, c.cutoff]
      let ranges := [(3000, 6000), (3000, 6000), (3000, 6000), (0, 1000), (0, 1000), (0, 1000), (100, 8000), (0, 1000),
        (2800, 4000)]
      ∃ c : BudgetCfg, fields c = clamped ranges (merged (fields s.budget.cfg)) ∧
      (c.presentMv ≤ c.absentMv ∨ c.capacity ≤ c.closeReserve → answers (.budgetCfgLoad p) .badArg) ∧
      (c.absentMv < c.presentMv → c.closeReserve < c.capacity →
        (c.capacity = s.budget.cfg.capacity → exec (.budgetCfgLoad p) s = .next (State.arbitrate
          (s.served p .tableLoad (fun s' => { s' with budget := { s'.budget with cfg := c } }) (.ready .ok [])))) ∧
        (c.capacity ≠ s.budget.cfg.capacity → exec (.budgetCfgLoad p) s = .next (State.arbitrate
          (s.served p .tableLoad (fun s' => { s' with budget := { s'.budget with
            cfg := c, estimated := true
            charge := s.budget.charge * c.capacity.toNat / s.budget.cfg.capacity.toNat } }) (.ready .ok []))))))

/-- A load that does not fit its table, or names none, is answered BAD_TABLE and changes nothing; for MOTION_CFG a
load that does not start at entry 0, gives fewer than the 8 leading fields, or gives another number of pairs than its
init count says. A read of a table code that names no table is BAD_TABLE, a fixed table read past its end too; any
other read changes nothing and returns the number of entries and the entries of the table from the first asked, as
many as asked, with 0 for all: of the lists BADLIST and LOG possibly none, of BIAS, MOUNT and LENS the newest copy
(R14, R27, R163, R164, R165, R176). That a BAD_TABLE answer carries no data (notes/assumptions/32.md) and that a
TABLE_READ is served whatever payload it brings (notes/assumptions/33.md) are the model's choices; that the read of
STATUS counts its own request among those waiting is read from the spec by inference (notes/assumptions/19.md); its
bytes are stated in `PlainCommands`, and its zone byte before a zone is in force is left open
(notes/assumptions/3.md). -/
def Obligations.LoadsRefusedAndReads : Prop :=
  ∀ (s : State) (p : Packet),
    let answers := fun c kind code => exec c s = .next (s.served p kind id (.ready code [])).arbitrate
    let first := p.header.firstEntry
    let count := p.header.entryCount
    (s.executes (.tableLoadOther p) → answers (.tableLoadOther p) .tableLoad .badTable) ∧
    (∀ (c : Packet → Instr) (entries size : Nat),
      (c, entries, size) ∈ [(.windowLoad, 1024, 4), (.biasLoad, 27, 4), (.mountLoad, 3, 2), (.lensLoad, 13, 4),
        (.clipCfgLoad, 11, 4), (.chargeProfileLoad, 23, 4), (.ocvLoad, 11, 4), (.budgetCfgLoad, 9, 4)] →
      s.executes (c p) → (count = 0 ∨ entries < first + count ∨ p.payload.length ≠ count * size) →
      answers (c p) .tableLoad .badTable) ∧
    (s.executes (.segmentLoad p) → (count = 0 ∨ 64 < count ∨ p.payload.length ≠ count * 6) →
      answers (.segmentLoad p) .tableLoad .badTable) ∧
    (s.executes (.motionCfgLoad p) →
      let pairs := (BitVec.ofNat 32 (leNat ((p.payload.drop 28).take 4))).toInt
      (first ≠ 0 ∨ count < 8 ∨ 24 < first + count ∨ p.payload.length ≠ count * 4 ∨
        (0 ≤ pairs ∧ pairs ≤ 16 ∧ (count : Int) ≠ 8 + pairs)) →
      answers (.motionCfgLoad p) .tableLoad .badTable) ∧
    (s.executes (.tableRead p) →
      (p.header.tableCode = 0 ∨ 13 < p.header.tableCode → answers (.tableRead p) .tableRead .badTable) ∧
      (let words := fun (e : List Int) => e.map (leSigned 4)
       let mount := s.motion.mount.newest
       let lens := s.motion.lens.newest
       let axis := fun (a : LensAxis) => ([a.shift, a.margin, a.gain] : List Int)
       let cfg := s.imu.cfg
       let clip := s.clip.cfg
       let budget := s.budget.cfg
       let read := fun (isFixed : Bool) (rows : List (List Byte)) =>
         let wanted := if count = 0 then rows.drop first else (rows.drop first).take count
         (isFixed = true → rows.length ≤ first → answers (.tableRead p) .tableRead .badTable) ∧
         ((isFixed = false ∨ first < rows.length) → wanted.flatten.length ≤ 65518 →
           exec (.tableRead p) s = .next (State.arbitrate (s.served p .tableRead id
             (.ready .ok (leBytes 2 wanted.length ++ wanted.flatten)))))
       (p.header.tableCode = 1 → read true ((List.range 1024).map (fun i =>
         leBytes 4 (s.clip.window.extractLsb' (32 * i) 32).toNat))) ∧
       (p.header.tableCode = 2 → read true ((List.range 64).map (fun i => (s.clip.slot i).bytes i))) ∧
       (p.header.tableCode = 3 → read true (words s.motion.bias.newest)) ∧
       (p.header.tableCode = 4 → read true ([mount.yaw, mount.pitch, mount.roll].map (fun m =>
         [BitVec.ofNat 8 m.axis, if m.negative then 1 else 0]))) ∧
       (p.header.tableCode = 5 → read true (words (
         [(lens.framePeriod : Int), lens.bands, lens.readout, lens.latchOffset] ++ axis lens.axes.yaw ++
         axis lens.axes.pitch ++ axis lens.axes.roll))) ∧
       (p.header.tableCode = 6 → read true (words [(cfg.rate : Int), cfg.spiClock, cfg.address, cfg.settleMs,
         cfg.shockT, cfg.shockRun, cfg.rearm, cfg.pairs.length] ++ cfg.pairs.map (fun x => [x.1, x.2, 0, 0]))) ∧
       (p.header.tableCode = 7 → read true (words [(clip.areaBase : Int), clip.sizeCode, clip.allowance,
         clip.protectLimit, clip.preEventS, clip.emergencyBudget, clip.perChunk, clip.batchKiB, clip.latencyMs,
         if clip.sleepEnable then 1 else 0, clip.shockHoldMs])) ∧
       (p.header.tableCode = 8 → read true (words s.charge.profile.entries)) ∧
       (p.header.tableCode = 9 → read true (words s.budget.ocv)) ∧
       (p.header.tableCode = 10 → read true (words [budget.presentMv, budget.absentMv, budget.vinMin, budget.headroom,
         budget.band, budget.burstReserve, budget.capacity, budget.closeReserve, budget.cutoff])) ∧
       (p.header.tableCode = 11 → read false (s.card.badList.map BadGranule.bytes)) ∧
       (p.header.tableCode = 12 → read false (s.card.log.map LogEntry.bytes)) ∧
       (p.header.tableCode = 13 →
         let snapshot := State.snapshotWith { s with link := { s.link with parked := false, parser := .header } }
         (∀ z, s.charge.zone = some z →
           read true [snapshot (BitVec.ofNat 8 ([Zone.cold, .cool, .normal, .warm, .hot].idxOf z))]) ∧
         (s.charge.zone = none → ∃ b, exec (.tableRead p) s = .next (State.arbitrate (s.served p .tableRead
           (fun s' => { s' with freeCount := s.freeCount + 1 })
           (if first = 0 then .ready .ok (leBytes 2 1 ++ snapshot b) else .ready .badTable [])))))))

/-! ### Chapter 7: the card -/

/-- The CLAIM and CDET lines. CLAIM asserted takes the card from any state to YIELDED with nothing in flight and the
grant NONE, and CARD_TAKEN; a grant given and not yet entered on makes it a CLAIM in RUN; released, it leads to INIT
with a card present, a sleeping card woken first, and to ABSENT otherwise. A change of CDET settles in 100 ms toward a
card and 1 ms toward none, and one that returns is forgotten. A settled insertion raises CARD_PRESENCE and begins INIT
from ABSENT (R103, R104, R105, R106, R118, R119, R150). That an assertion of a line already asserted, a release of one
already released, a change to the standing level and an insertion sent before it has settled change nothing is the
model's choice (notes/assumptions/7.md). That the recovery count stays as it is until the INIT that begins here
succeeds is read from the spec by inference (notes/assumptions/8.md). That a grant held counts as a run before
ENTER_RUN is read from the spec by inference (notes/assumptions/36.md). -/
def Obligations.ClaimAndInsertion : Prop :=
  ∀ s : State,
    let idle := { s.card with bus := none, run := none, ident := none }
    let beginInit := fun (origin : IdentOrigin) (op : CardOp) (us : Nat) => ({ idle with
      state := .init, ident := some { origin := origin, attempt := 1, capacity := none }
      bus := some { op := op, deadline := later s.now us } } : CardController)
    let taken := fun (left : CardState) => exec .claimAssert s = .next (State.conclude (State.raise { s with
      pins := { s.pins with claim := true }, budget := { s.budget with grant := .none }
      card := { idle with state := .yielded, leftAsleep := decide (left = .sleep) } }
      (.cardTaken left ((s.clip.filling.map Filling.front).getD 0))))
    (s.pins.claim = false →
      (s.runGranted = false → taken s.card.state) ∧
      (s.runGranted = true → s.card.state = .sleep → taken .run) ∧
      (∀ f addr, s.runGranted = true → s.card.state = .ready → s.clip.filling = some f →
        s.blockAddress f.front = some addr → 1 ≤ s.runLength f → taken .run)) ∧
    (s.pins.claim = true → exec .claimAssert s = .next s) ∧
    (s.pins.claim = true → s.card.state = .yielded →
      let released := fun (card : CardController) => exec .claimRelease s = .next (State.conclude { s with
        pins := { s.pins with claim := false }, card := { card with leftAsleep := false } })
      (s.card.present = false → released { s.card with state := .absent }) ∧
      (s.card.present = true → s.card.leftAsleep = false → released (beginInit .claimRelease .identify 50000)) ∧
      (s.card.present = true → s.card.leftAsleep = true → released (beginInit .claimRelease .wake 5000))) ∧
    (s.pins.claim = false → exec .claimRelease s = .next s) ∧
    (∀ level, (level = s.pins.card → exec (.cdetChange level) s = .next s) ∧
      (level ≠ s.pins.card → exec (.cdetChange level) s = .next { s with
        pins := { s.pins with card := level }
        card := { s.card with settleDue :=
          if level = s.card.present then none else some (later s.now (if level then 100000 else 1000)) } })) ∧
    (∀ d, s.pins.card = true → s.card.present = false → s.card.settleDue = some d →
      (atOrAfter s.now d = false → exec .cardInsertion s = .next s) ∧
      (atOrAfter s.now d = true → exec .cardInsertion s = .next (State.conclude (State.raise { s with
        card := { (if s.card.state = .absent then beginInit .insertion .identify 50000 else s.card) with
          present := true, settleDue := none } } (.cardPresence true s.now)))))

/-- CARD_REMOVAL once settled: the presence goes with CARD_PRESENCE, whatever the card was doing is abandoned and the
grant released, the card is ABSENT, or stays YIELDED, with capacity and recovery count 0. An open clip ends with its
segment INTERRUPTED, a close sequence and an end time, and the queue discarded, with CLIP_ENDED. A CARD_REMOVED entry
joins the log, with CARD_ERROR, where a run, an INIT, a RECOVER or a clip was lost, and only there; outside a run it
names no block. A grant given and not yet entered on makes it a removal in RUN. Two operations that the statements on
the card's failures use are given whole: `clipLost`, the end of an open clip with the card, and `logError`, an entry
of the log with its CARD_ERROR, the oldest entry dropped from a full log and counted (R101, R104, R106, R116, R122,
R150). That it acts on a run before ENTER_RUN is read from the spec by inference (notes/assumptions/36.md). The order
in which the pages of discarded chunks return is the model's choice (notes/assumptions/29.md). -/
def Obligations.CardRemoval : Prop :=
  (∀ (s : State) (d : Time), s.pins.card = false → s.card.present = true → s.card.settleDue = some d →
    atOrAfter s.now d = true → ∃ t, exec .cardRemoval s = .next t ∧
      t.card.present = false ∧ t.card.settleDue = none ∧ t.card.bus = none ∧ t.card.run = none ∧ t.card.ident = none ∧
      t.card.capacity = 0 ∧ t.card.recovery = 0 ∧ t.card.badList = s.card.badList ∧ t.budget.grant = .none ∧
      t.card.state = (if s.card.state = .yielded then .yielded else .absent) ∧
      (let u := s.enterGranted
       let told := fun n => (∃ e ∈ t.link.notices, e.notice = n) ∨ ∃ k, t.link.sending = some (noticePacket ⟨k, n⟩)
       let lost := u.card.state = .run ∨ s.card.state = .init ∨ s.card.state = .recover ∨ s.clip.state ≠ .idle
       (s.runGranted = false → u = s) ∧
       told (.cardPresence false s.now) ∧
       (s.clip.state ≠ .idle → told (.clipEnded s.clip.clipNumber .cardAbsent)) ∧
       (¬lost → t.card.logSeq = s.card.logSeq ∧ t.card.log = s.card.log) ∧
       (lost → t.card.logSeq = s.card.logSeq + 1 ∧ told (.cardError .cardRemoved (s.card.logSeq + 1)) ∧
         ∃ e, t.card.log.getLast? = some e ∧ e.seq = s.card.logSeq + 1 ∧ e.kind = .cardRemoved ∧ e.attempts = 1 ∧
           e.time = s.now ∧
           (u.card.state ≠ .run ∨ u.card.run = none → e.addr = 0 ∧ e.slot = none) ∧
           (∀ r, u.card.state = .run → u.card.run = some r →
             e.slot = (if s.clip.filling.map Filling.slot = some r.slot then some r.slot else none) ∧
             (r.acked < r.count → (∀ c, u.card.bus = some c → c.op ≠ .closeRun) → e.addr = r.addr + r.acked)))) ∧
      t.clip.state = .idle ∧
      (s.clip.state ≠ .idle → t.buffer.queue = [] ∧ t.clip.filling = none ∧ t.frame.accOpen = false) ∧
      (∀ f, s.clip.state ≠ .idle → s.clip.filling = some f →
        t.clip.closeCounter = s.clip.closeCounter + 1 ∧
        t.clip.slots = s.clip.slots.setIfInBounds f.slot { s.clip.slot f.slot with
          state := .interrupted, endTime := some s.now, closeSeq := some (s.clip.closeCounter + 1) }) ∧
      (s.clip.state = .idle → t.clip = s.clip ∧ t.buffer.queue = s.buffer.queue)) ∧
  -- an open clip lost with the card
  (∀ u : State,
    (u.clip.state = .idle → u.clipLost = u) ∧
    (u.clip.state ≠ .idle → u.clipLost = State.raise { u with
        buffer := { u.buffer with
          queue := [], flush := none, free := u.buffer.free ++ u.buffer.queue.flatMap Chunk.pages
          discarded := u.buffer.discarded + BitVec.ofNat 32 u.buffer.queue.length }
        frame := { u.frame with accOpen := false, acc := [] }
        clip := match u.clip.filling with
          | none => { u.clip with state := .idle }
          | some f => { u.clip with
            state := .idle, filling := none, closeCounter := u.clip.closeCounter + 1
            slots := u.clip.slots.setIfInBounds f.slot { u.clip.slot f.slot with
              state := .interrupted, endTime := some u.now, closeSeq := some (u.clip.closeCounter + 1) } } }
      (.clipEnded u.clip.clipNumber .cardAbsent))) ∧
  -- an entry of the error log, with its CARD_ERROR
  (∀ (u : State) (kind : LogKind) (addr : Nat) (slot : Option Nat) (attempts : Nat),
    u.logError kind addr slot attempts = State.raise { u with card := { u.card with
      logSeq := u.card.logSeq + 1
      log := (if u.card.log.length < 32 then u.card.log else u.card.log.drop 1) ++ [{
        seq := u.card.logSeq + 1, kind := kind, addr := addr, slot := slot, attempts := attempts, time := u.now }]
      overflow := if u.card.log.length < 32 then u.card.overflow else u.card.overflow + 1 } }
      (.cardError kind (u.card.logSeq + 1)))

/-- The answers of an identification, each counted only within its time. IDENTIFY's capacity leads to STATUS; a
capacity of 0 counts as no answer. READY ends an INIT: the capacity stored, the recovery count cleared, the card
READY, or put to sleep in PARK, after an insertion its lists emptied, and after a release of CLAIM CARD_RETURNED
raised. NOT_READY fails the try: IDENTIFY again, and at the third the card is in FAULT, an open clip is lost
(`clipLost`) and INIT_FAILED logged with CARD_ERROR (`logError`; both stated in `CardRemoval`). In RECOVER the stored
capacity must come back (R103, R105, R114, R115, R116, R123). That another capacity in RECOVER still leads to STATUS
and fails the try at its answer only, and that a capacity of 0 waits for the timeout, is read from the spec by
inference (notes/assumptions/8.md). That an answer after its time is ignored is the model's choice
(notes/assumptions/7.md). That the entry follows the clip's end is read from the spec by inference
(notes/assumptions/12.md). -/
def Obligations.IdentificationAnswers : Prop :=
  ∀ (s : State) (i : Identification) (d : Time) (op : CardOp), s.card.ident = some i →
    s.card.bus = some { op := op, deadline := d } → 
    let inTime := atOrAfter d s.now = true
    let sent := fun (op : CardOp) => some ({ op := op, deadline := later s.now 50000 } : CardCommand)
    (atOrAfter d s.now = false → ∀ cap ready, exec (.identifyResponse cap) s = .next s ∧
      exec (.cardStatusResponse ready) s = .next s) ∧
    (inTime → op = .identify → ∀ cap : Word32,
      (cap = 0 → exec (.identifyResponse cap) s = .next s) ∧
      (cap ≠ 0 → exec (.identifyResponse cap) s = .next (State.conclude { s with card := { s.card with
        ident := some { i with capacity := some cap }, bus := sent .status } }))) ∧
    (inTime → op = .status → ∀ cap : Word32, i.capacity = some cap →
      (i.origin ≠ .recovery ∨ cap = s.card.capacity → exec (.cardStatusResponse true) s =
        .next (State.conclude (State.raiseIf { s with card := { s.card with
          ident := none, state := .ready, bus := if s.link.parked then sent .sleep else none
          capacity := cap, recovery := if i.origin = .recovery then s.card.recovery else 0
          badList := if i.origin = .insertion then [] else s.card.badList
          suppressed := if i.origin = .insertion then [] else s.card.suppressed } }
          (decide (i.origin = .claimRelease)) (.cardReturned cap)))) ∧
      (∀ ready, (ready = false ∨ i.origin = .recovery ∧ cap ≠ s.card.capacity) →
        (i.attempt < 3 → exec (.cardStatusResponse ready) s = .next (State.conclude { s with card := { s.card with
          ident := some { i with attempt := i.attempt + 1, capacity := none }, bus := sent .identify } })) ∧
        (3 ≤ i.attempt →
          let faulted : State := { s with
            budget := { s.budget with grant := .none }
            card := { s.card with state := .fault, bus := none, run := none, ident := none } }
          exec (.cardStatusResponse ready) s = .next (State.conclude (faulted.clipLost.logError .initFailed 0 none 3)))))

/-- Entering RUN on a grant held: a sleeping card is sent WAKE first; otherwise, and once WAKE is acknowledged,
OPEN_RUN goes out at the card address of the acknowledged front, for the least of the whole pending blocks, the
writable blocks, the blocks to the end of the granule's contributing part, and 2048; with no segment FILLING the run
is left at once. In an identification the acknowledged WAKE leads to IDENTIFY. SLEEP acknowledged leaves the card in
SLEEP. Without a grant nothing is entered (R82, R89, R103, R105, R106, R107, R109, R121, R123). That ENTER_RUN without
a grant has no effect, the moment at which the length is formed, and that a run with nothing to write is left at once,
are the model's choice (notes/assumptions/7.md, notes/assumptions/10.md). -/
def Obligations.CardEntersRun : Prop :=
  (∀ s : State, s.budget.grant ≠ .held → exec .enterRun s = .next s) ∧
  (∀ s : State, s.budget.grant = .held → s.card.state = .sleep → s.card.bus = none →
    exec .enterRun s = .next (State.conclude { s with card := { s.card with
      state := .run, bus := some { op := .wake, deadline := later s.now 5000 } } })) ∧
  (∀ (s : State) (f : Filling) (j o left : Nat), s.clip.filling = some f →
    locate f.contrib f.front = some (j, o, left) →
    let size := 16384 * 2 ^ s.clip.cfg.sizeCode
    let addr := s.clip.cfg.areaBase + ((s.clip.slot f.slot).first + j) * size + o
    let count := min (min (s.buffer.pendingBytes / 512) (f.placement / 512 - f.front)) (min left 2048)
    let opened := State.conclude { s with card := { s.card with
      state := .run
      run := some { slot := f.slot, first := f.front, addr := addr, count := count, acked := 0, attempts := 0,
                    after := .leave, awaitHold := false }
      bus := some { op := .openRun addr count, deadline := later s.now 50000 } } }
    1 ≤ count →
      (s.budget.grant = .held → s.card.state = .ready → s.card.bus = none → exec .enterRun s = .next opened) ∧
      (∀ d, s.card.bus = some { op := .wake, deadline := d } → atOrAfter d s.now = true → s.card.ident = none →
        s.card.state = .run → exec .wakeAck s = .next opened)) ∧
  (∀ s : State, s.clip.filling = none →
    let sleeps := s.clip.cfg.sleepEnable = true ∧ s.buffer.flush = none ∧
      s.buffer.pendingBytes < 1024 * s.clip.cfg.batchKiB ∧ s.buffer.runDue s.clip.cfg.batchKiB = false
    let left := State.conclude { s with
      budget := { s.budget with grant := .none }
      card := { s.card with
        run := none, state := .ready
        bus := if sleeps then some { op := .sleep, deadline := later s.now 50000 } else none } }
    (s.budget.grant = .held → s.card.state = .ready → s.card.bus = none → exec .enterRun s = .next left) ∧
    (∀ d, s.card.bus = some { op := .wake, deadline := d } → atOrAfter d s.now = true → s.card.ident = none →
      exec .wakeAck s = .next left)) ∧
  (∀ (s : State) (d : Time), s.card.bus = some { op := .wake, deadline := d } → atOrAfter d s.now = true →
    s.card.ident ≠ none → exec .wakeAck s = .next (State.conclude { s with card := { s.card with
      bus := some { op := .identify, deadline := later s.now 50000 } } })) ∧
  (∀ (s : State) (d : Time), s.card.bus = some { op := .sleep, deadline := d } → atOrAfter d s.now = true →
    exec .sleepAck s = .next (State.conclude { s with card := { s.card with state := .sleep, bus := none } }))

/-- A run's blocks. After OPEN_RUN the current block is sent with its 512 bytes where it lies below the writable end
in a granule the part may write; ACCEPTED starts the busy; DONE acknowledges the block: the front moves past it, its
bytes are credited, the chunks that became WRITTEN leave from the head and give the segment its stream length, the
recovery count is cleared and a block taken at a later attempt counts as corrected, with a CORRECTED entry once per
granule; then the clip recorder's standing work is done, whatever its state, and the run's next block is sent where it
may be, or else CLOSE_RUN, as after the last block (R70, R96, R103, R108, R109, R116, R117). That a block in a granule
the part may not write ends the run with CLOSE_RUN, and that the clip recorder's work comes before the next block, are
read from the spec by inference and are the model's choice (notes/assumptions/10.md, notes/assumptions/9.md). -/
def Obligations.RunBlocks : Prop :=
  ∀ (s : State) (r : Run) (op : CardOp) (d : Time), s.card.run = some r →
    s.card.bus = some { op := op, deadline := d } → atOrAfter d s.now = true →
    let sent := fun (op : CardOp) (us : Nat) => some ({ op := op, deadline := later s.now us } : CardCommand)
    let here := r.addr + r.acked
    let n := r.first + r.acked
    -- block k of the run may be sent, and it or CLOSE_RUN is, the clip recorder standing as in v
    let may := fun (v : State) (f : Filling) (k : Nat) =>
      let g := (r.addr + k - v.clip.cfg.areaBase) / (16384 * 2 ^ v.clip.cfg.sizeCode)
      k < r.count ∧ f.slot = r.slot ∧ r.first + k < f.placement / 512 ∧ v.clip.window.getLsbD g = true ∧
      v.clip.cfg.areaBase + (g + 1) * (16384 * 2 ^ v.clip.cfg.sizeCode) ≤ v.card.capacity.toNat ∧
      (∀ e ∈ v.card.badList, e.granule ≠ g) ∧ (v.clip.slot f.slot).first ≤ g ∧
      g < (v.clip.slot f.slot).first + (v.clip.slot f.slot).count
    let goesOn := fun (c : Instr) (v : State) (k : Nat) (run : Run) =>
      (∀ f, v.clip.filling = some f → may v f k → exec c s = .next (State.conclude { v with card := { v.card with
        run := some run
        bus := sent (.block (r.addr + k)
          ((List.range 512).map (fun j => v.streamByte f (512 * (r.first + k) + j)))) 50000 } })) ∧
      ((∀ f, v.clip.filling = some f → ¬may v f k) → exec c s = .next (State.conclude { v with card := { v.card with
        run := some { run with after := .leave }, bus := sent .closeRun 50000 } }))
    (∀ a k, op = .openRun a k → goesOn .openRunAck s r.acked r) ∧
    (∀ a data, op = .block a data → exec (.blockToken true) s = .next (State.conclude { s with
      card := { s.card with bus := sent (.busy a) 250000 } })) ∧
    (∀ a, op = .busy a →
      let g := (here - s.clip.cfg.areaBase) / (16384 * 2 ^ s.clip.cfg.sizeCode)
      let logged := r.attempts ≠ 0 ∧ g ∉ s.card.suppressed ∧ s.card.suppressed.length < 64
      let entry : LogEntry := {
        seq := s.card.logSeq + 1, kind := .corrected, addr := here, attempts := r.attempts + 1, time := s.now
        slot := if s.clip.filling.map Filling.slot = some r.slot then some r.slot else none }
      let card := { s.card with
        recovery := 0
        corrected := if r.attempts = 0 then s.card.corrected else s.card.corrected + 1
        suppressed := if logged then s.card.suppressed ++ [g] else s.card.suppressed
        logSeq := if logged then s.card.logSeq + 1 else s.card.logSeq
        log := if logged then (if s.card.log.length < 32 then s.card.log else s.card.log.drop 1) ++ [entry] else s.card.log
        overflow := if logged ∧ 32 ≤ s.card.log.length then s.card.overflow + 1 else s.card.overflow }
      let next := { r with acked := r.acked + 1, attempts := 0 }
      let credited := s.buffer.queue.map (fun c => match c.place with
        | none => c
        | some o => { c with acked := c.acked + (min (o + (16 + c.length)) (512 * (n + 1)) - max o (512 * n)) })
      let whole := fun (c : Chunk) => decide (c.state = .placed) && c.place.isSome && decide (16 + c.length ≤ c.acked)
      let gone := credited.takeWhile whole
      let left := credited.dropWhile whole
      -- whatever the clip recorder is doing
      ((∀ f, s.clip.filling = some f → f.slot ≠ r.slot) →
        goesOn (.busyEnd true) ({ s with card := card } : State).settleClip (r.acked + 1) next) ∧
      (∀ f, s.clip.filling = some f → f.slot = r.slot →
        goesOn (.busyEnd true) (State.settleClip { s with
          card := card
          buffer := { s.buffer with
            queue := left, free := s.buffer.free ++ gone.flatMap Chunk.pages
            written := s.buffer.written + BitVec.ofNat 32 gone.length
            flush := s.buffer.flush.filter (fun m => decide (m ∈ left.map Chunk.seq)) }
          clip := { s.clip with
            filling := some { f with front := if n = f.front then n + 1 else f.front }
            slots := match gone.getLast? with
              | none => s.clip.slots
              | some c => s.clip.slots.setIfInBounds f.slot { s.clip.slot f.slot with
                streamLen := c.place.getD 0 + (16 + c.length), lastSeq := some c.seq } } }) (r.acked + 1) next) ∧
      -- in RECORDING with no standing work of the clip recorder
      (∀ f, s.clip.filling = some f → s.clip.state = .recording → f.pending = none → f.slot = r.slot → n = f.front →
        (∀ c ∈ s.buffer.queue, c.place = none → c.state = .receiving) →
        ∃ t, exec (.busyEnd true) s = .next t ∧ t.clip.filling = some { f with front := f.front + 1 } ∧
          t.buffer.queue = left ∧ t.buffer.free = s.buffer.free ++ gone.flatMap Chunk.pages ∧
          t.buffer.written = s.buffer.written + BitVec.ofNat 32 gone.length ∧ t.buffer.ram = s.buffer.ram ∧
          (gone = [] → t.clip.slots = s.clip.slots) ∧
          (∀ c rest, gone = rest ++ [c] → t.clip.slots = s.clip.slots.setIfInBounds f.slot { s.clip.slot f.slot with
            streamLen := c.place.getD 0 + (16 + c.length), lastSeq := some c.seq }) ∧
          t.card.recovery = 0 ∧ t.card.badList = s.card.badList ∧
          t.card.corrected = (if r.attempts = 0 then s.card.corrected else s.card.corrected + 1) ∧
          (may s f (r.acked + 1) → t.card.run = some next ∧ t.card.bus = sent (.block (here + 1)
            ((List.range 512).map (fun j => t.streamByte f (512 * (n + 1) + j)))) 50000) ∧
          (¬may s f (r.acked + 1) → t.card.run = some { next with after := .leave } ∧
            t.card.bus = sent .closeRun 50000)))

/-- A run's end, its failures and the end of a shock hold. CLOSE_RUN acknowledged at a run's end releases the grant
and leaves RUN, to sleep where no flush, batch or run due stands. CRC_REJECT and PROGRAM_FAIL are failed attempts:
CLOSE_RUN is sent, and once it is acknowledged the block is tried again at its own address, not while a shock hold
stands but at its end. After the third attempt the block ends (`giveUpBlock`): BLOCK_FAILED is logged, the granule
joins the bad-granule list while that holds fewer than 32, and the skip is reported: it is recorded in the segment's
skip list and cuts the granule's contribution to the block's offset where the granule joined and the list holds fewer
than 4 entries, and not recorded otherwise. Where every placed chunk still ends within the new capacity filling goes
on. Otherwise the segment is damaged at the first placed chunk F that does not, in the unrecorded case at the first
that ends past the blocks acknowledged: the placements of F and of every chunk after it are withdrawn, in EMERGENCY
they are discarded, the placement position is F's offset with the rest of its block filled, a DAMAGED close takes over
any that is pending, and a flush is requested with the last chunk whose placement stands. Then the clip recorder's
standing work is done and the card leaves RUN. A shock hold that expires is gone, and a retry that waited for it
proceeds (R76, R77, R97, R100, R109, R110, R111, R112, R116, R120, R121). That a run whose segment has left FILLING
still gives its slot to the bad-granule entry, and the order in which the pages of discarded chunks return, are the
model's choice (notes/assumptions/30.md, notes/assumptions/29.md). So is that a shock hold's expiry before its time
has no effect (notes/assumptions/7.md). That the first sequence number and the note of a chunk placed go where F stood
at position 0 is read from the spec by inference (notes/assumptions/16.md). That an unrecorded skip which no placed
chunk ends past changes nothing is the model's choice (notes/assumptions/39.md). -/
def Obligations.RunFailures : Prop :=
  (∀ (s : State) (r : Run) (op : CardOp) (d : Time), s.card.run = some r →
    s.card.bus = some { op := op, deadline := d } → atOrAfter d s.now = true →
    let here := r.addr + r.acked
    let sent := fun (op : CardOp) => some ({ op := op, deadline := later s.now 50000 } : CardCommand)
    let failed := State.conclude { s with card := { s.card with
      run := some { r with attempts := r.attempts + 1, after := if 3 ≤ r.attempts + 1 then .giveUp else .retry }
      bus := sent .closeRun } }
    -- the grant released and the card out of RUN, to sleep where R121 allows
    let leaves := fun (v : State) =>
      let sleeps := v.clip.cfg.sleepEnable = true ∧ v.buffer.flush = none ∧
        v.buffer.pendingBytes < 1024 * v.clip.cfg.batchKiB ∧ v.buffer.runDue v.clip.cfg.batchKiB = false
      State.conclude { v with
        budget := { v.budget with grant := .none }
        card := { v.card with run := none, state := .ready, bus := if sleeps then sent .sleep else none } }
    (∀ a data, op = .block a data → exec (.blockToken false) s = .next failed) ∧
    (∀ a, op = .busy a → exec (.busyEnd false) s = .next failed) ∧
    (op = .closeRun →
      (r.after = .leave → exec .closeRunAck s = .next (leaves s)) ∧
      (r.after = .retry → s.card.shockHold = none → exec .closeRunAck s = .next (State.conclude { s with
        card := { s.card with
          run := some { r with awaitHold := false }, bus := sent (.openRun here (r.count - r.acked)) } })) ∧
      (r.after = .retry → s.card.shockHold ≠ none → exec .closeRunAck s = .next (State.conclude { s with
        card := { s.card with run := some { r with awaitHold := true }, bus := none } })) ∧
      (r.after = .giveUp →
        let skipped := State.giveUpBlock { s with budget := { s.budget with grant := .none } } r
        exec .closeRunAck s = .next (leaves skipped.settleClip.syncBuffer) ∧
        ∃ t, exec .closeRunAck s = .next t ∧ t.card.run = none ∧ t.budget.grant ≠ .held ∧
          (t.card.state = .ready ∨ t.card.state = .sleep) ∧ t.card.badList = skipped.card.badList ∧
          t.card.log = skipped.card.log ∧ t.card.logSeq = skipped.card.logSeq))) ∧
  -- the block's end and the skip
  (∀ (s : State) (r : Run),
    let here := r.addr + r.acked
    let size := 16384 * 2 ^ s.clip.cfg.sizeCode
    let g := (here - s.clip.cfg.areaBase) / size
    let o := (here - s.clip.cfg.areaBase) % size
    let listed := ∃ e ∈ s.card.badList, e.granule = g
    let joined := listed ∨ s.card.badList.length < 32
    let entry : LogEntry := {
      seq := s.card.logSeq + 1, kind := .blockFailed, addr := here, attempts := 3, time := s.now
      slot := if s.clip.filling.map Filling.slot = some r.slot then some r.slot else none }
    let told := State.raise { s with card := { s.card with
        badList := if listed ∨ 32 ≤ s.card.badList.length then s.card.badList
          else s.card.badList ++ [{ granule := g, addr := here, slot := r.slot, time := s.now }]
        logSeq := s.card.logSeq + 1
        log := (if s.card.log.length < 32 then s.card.log else s.card.log.drop 1) ++ [entry]
        overflow := if s.card.log.length < 32 then s.card.overflow else s.card.overflow + 1 } }
      (.cardError .blockFailed (s.card.logSeq + 1))
    ((∀ f, s.clip.filling = some f → f.slot ≠ r.slot) → s.giveUpBlock r = told) ∧
    (∀ f, s.clip.filling = some f → f.slot = r.slot →
      let x := s.clip.slot f.slot
      let recorded := joined ∧ x.skips.length < 4
      let contrib := if recorded then f.contrib.set (g - x.first) o else f.contrib
      let x' := if recorded then { x with skips := x.skips ++ [(g, o)] } else x
      let limit := if recorded then contrib.sum * 512 else 512 * f.front
      -- every placed chunk still ends within: filling goes on
      ((∀ c p, c ∈ s.buffer.queue → c.place = some p → p + (16 + c.length) ≤ limit) →
        s.giveUpBlock r = { told with clip := { s.clip with
          filling := some { f with contrib := contrib }, slots := s.clip.slots.setIfInBounds f.slot x' } }) ∧
      -- the segment is damaged at c, the first that does not
      (∀ q c rest pos, s.buffer.queue = q ++ c :: rest → c.place = some pos → limit < pos + (16 + c.length) →
        (∀ e p, e ∈ q → e.place = some p → p + (16 + e.length) ≤ limit) → (∀ e ∈ q, e.seq ≠ c.seq) →
        let emergency := s.clip.state = .emergency
        let filled := f.front ≤ pos / 512 ∧ pos % 512 ≠ 0
        let kept := f.fillers.filter (fun st => decide (st < pos))
        let flush := if emergency then s.buffer.flush.filter (fun m => decide (m ∈ q.map Chunk.seq))
          else s.buffer.flush
        s.giveUpBlock r = { told with
          buffer := { s.buffer with
            queue := if emergency then q else q ++ (c :: rest).map (fun e => { e with place := none })
            free := if emergency then s.buffer.free ++ (c :: rest).flatMap Chunk.pages else s.buffer.free
            discarded := if emergency then s.buffer.discarded + BitVec.ofNat 32 (rest.length + 1)
              else s.buffer.discarded
            flush := match (q.filter (fun e => e.place.isSome)).getLast? with
              | none => flush
              | some e => some (match flush with
                | none => e.seq
                | some m => if m ∈ (q.takeWhile (fun y => decide (y.seq ≠ e.seq))).map Chunk.seq then e.seq else m) }
          clip := { s.clip with
            filling := some { f with
              contrib := contrib, pending := some .damaged, damagedAt := some pos
              placement := if filled then (pos / 512 + 1) * 512 else pos
              fillers := if filled then kept ++ [pos] else kept
              anyPlaced := f.anyPlaced && decide (pos ≠ 0) }
            slots := s.clip.slots.setIfInBounds f.slot
              (if pos = 0 then { x' with firstSeq := none } else x') } }))) ∧
  (∀ (s : State) (d : Time), s.card.shockHold = some d →
    (atOrAfter s.now d = false → exec .shockHoldExpiry s = .next s) ∧
    (atOrAfter s.now d = true →
      (∀ r, s.card.run = some r → r.awaitHold = true → exec .shockHoldExpiry s = .next (State.conclude { s with
        card := { s.card with
          shockHold := none, run := some { r with awaitHold := false }
          bus := some { op := .openRun (r.addr + r.acked) (r.count - r.acked), deadline := later s.now 50000 } } })) ∧
      ((∀ r, s.card.run = some r → r.awaitHold = false) → exec .shockHoldExpiry s = .next (State.conclude { s with
        card := { s.card with shockHold := none } }))))

/-- CARD_TIMEOUT and BUSY_TIMEOUT. A command of a run, a WAKE or SLEEP outside an identification, or a busy that has
run out of its time is a timeout: everything is abandoned, the grant released, the entry logged with CARD_ERROR, the
recovery count one higher, and the card in RECOVER with IDENTIFY sent, or at the third in FAULT with an open clip lost
(`clipLost` and `logError` are stated in `CardRemoval`). An IDENTIFY or STATUS unanswered, or a WAKE within an
identification, fails its try alone, and at the third the card is in FAULT with INIT_FAILED. A CLOSE_RUN unanswered
after a block failed for good is a timeout, and the skip (`giveUpBlock`, stated in `RunFailures`) is still taken,
before it or after it (R101, R103, R105, R111, R113, R114, R115, R116). Which of the two orders, and the address that
the entry of a run already ended gives, are left open (notes/assumptions/3.md). That the event of the other row has no
effect is the model's choice (notes/assumptions/7.md); the order of an entry and a clip's end is read from the spec by
inference (notes/assumptions/12.md). -/
def Obligations.CardTimeouts : Prop :=
  ∀ (s : State) (op : CardOp) (d : Time), s.card.bus = some { op := op, deadline := d } → atOrAfter s.now d = true →
    let identify := some ({ op := .identify, deadline := later s.now 50000 } : CardCommand)
    -- a timeout, at a block of a run or at none
    let timeout := fun (kind : LogKind) (addr : Nat) (slot : Option Nat) (u : State) =>
      let told := State.logError { u with
        budget := { u.budget with grant := .none }
        card := { u.card with bus := none, run := none, ident := none } } kind addr slot 1
      let counted : State := { told with card := { told.card with recovery := u.card.recovery + 1 } }
      if u.card.recovery < 2 then ({ counted with card := { counted.card with
        state := .recover, bus := identify
        ident := some { origin := .recovery, attempt := 1, capacity := none } } } : State)
      else State.clipLost { counted with card := { counted.card with state := .fault } }
    -- after a run's last block, or its early end, the entry's address is left open
    let ended := fun (r : Run) => r.count ≤ r.acked ∨ r.after = .leave ∧ op = .closeRun
    let drawn := fun (n : Nat) => ({ s with freeCount := s.freeCount + n } : State)
    let slotOf := fun (r : Run) => if s.clip.filling.map Filling.slot = some r.slot then some r.slot else none
    let inRun := fun (c : Instr) (kind : LogKind) =>
      (s.card.run = none → exec c s = .next (State.conclude (timeout kind 0 none s))) ∧
      (∀ r, s.card.run = some r →
        (¬ended r → exec c s = .next (State.conclude (timeout kind (r.addr + r.acked) (slotOf r) s))) ∧
        (ended r → ∃ addr, exec c s = .next (State.conclude (timeout kind addr (slotOf r) (drawn 1)))))
    ((∃ a k, op = .openRun a k) ∨ (∃ a data, op = .block a data) → inRun .cardTimeout .noResponse) ∧
    (op = .closeRun → (∀ r, s.card.run = some r → r.after ≠ .giveUp) → inRun .cardTimeout .noResponse) ∧
    -- a CLOSE_RUN unanswered after a block failed for good
    (∀ r, op = .closeRun → s.card.run = some r → r.after = .giveUp → r.acked < r.count →
      let skipped := fun (u : State) => (u.giveUpBlock r).settleClip
      let timedOut := fun (u : State) => timeout .noResponse (r.addr + r.acked)
        (if u.clip.filling.map Filling.slot = some r.slot then some r.slot else none) u
      exec .cardTimeout s = .next (State.conclude (timedOut (skipped (drawn 1)))) ∨
      exec .cardTimeout s = .next (State.conclude (skipped (timedOut (drawn 1))))) ∧
    (op = .sleep ∨ op = .wake ∧ s.card.ident = none →
      exec .cardTimeout s = .next (State.conclude (timeout .noResponse 0 none s))) ∧
    ((∃ a, op = .busy a) → inRun .busyTimeout .busyTimeout ∧ exec .cardTimeout s = .next s) ∧
    -- a try of an identification fails
    (∀ i, s.card.ident = some i → (op = .identify ∨ op = .status ∨ op = .wake) →
      (i.attempt < 3 → exec .cardTimeout s = .next (State.conclude { s with card := { s.card with
        ident := some { i with attempt := i.attempt + 1, capacity := none }, bus := identify } })) ∧
      (3 ≤ i.attempt →
        let faulted : State := { s with
          budget := { s.budget with grant := .none }
          card := { s.card with state := .fault, bus := none, run := none, ident := none } }
        exec .cardTimeout s = .next (State.conclude (faulted.clipLost.logError .initFailed 0 none 3))))

/-! ### Chapters 8 and 9: charging, the input budget and the gauge -/

/-- The stage decision of an update, the hold causes settled. The input gone takes every stage to IDLE; a fast stage
adds the setpoint in force to E and goes to FAULT TIMER at the safety limit; a cause takes a charging stage to HOLD
with its resume stage, and HOLD is left for it once no cause stands. QUALIFY is entered at rest with E and its count
cleared, counts 50 updates and then judges the cell's voltage. PRECHARGE goes to FAST at the tenth update in a row at
its threshold and to FAULT TIMER when its time is out. FAST counts the updates in a row at or above the zone's limit
less 20 mV and goes to TAPER at the tenth; a change of zone starts the count again. TAPER counts those with IBAT at or
below the termination current and goes to TOP_OFF at the twentieth; TOP_OFF runs out its time into FULL, which sets
the gauge to full; FULL goes to FAST with E cleared once the cell has fallen by the recharge drop. OVER_VOLTAGE is set
above the zone's limit, and stands until 100 mV below its recorded limit or a change of zone. A stage is entered with
its run count at 0, FULL, HOLD and FAULT with CHARGE_STATE; its ceiling follows the zone, halved at DIE_WARN (R128,
R129, R130, R131, R132, R133, R134, R135, R136, R137, R140, R141). That a change of zone makes the OVER_VOLTAGE
comparison again only in the stages judged for it is the model's choice (notes/assumptions/31.md). -/
def Obligations.QualifyAndFastTests : Prop :=
  (∀ s : State,
    let v := s.budget.readings.vbat
    let t := s.decideStage
    let fast := s.charge.stage = .fast ∨ s.charge.stage = .taper ∨ s.charge.stage = .topOff
    let sum := s.charge.safety + s.budget.inForce.toNat
    let holdable := s.charge.stage ≠ .idle ∧ s.charge.stage ≠ .hold ∧ s.charge.stage ≠ .fault
    -- a stage is entered: everything that changes, with CHARGE_STATE for FULL, HOLD and FAULT
    let entered := fun (stage : Stage) (elapsed : Nat) (fault : Option ChargeFault) (resume : Stage) =>
      t = State.raiseIf { s with
        charge := { s.charge with
          stage := stage, runCount := 0, elapsed := elapsed, fault := fault, resume := resume
          safety := if stage = .qualify ∨ s.charge.stage = .full ∧ stage = .fast then 0
            else if fast ∧ s.budget.inputPresent = true then sum else s.charge.safety
          causes := if s.budget.inputPresent = false then { HoldCauses.clear with inhibit := s.charge.causes.inhibit }
            else if stage = .fault then { s.charge.causes with overVoltage := false } else s.charge.causes
          ovLimit := if stage = .fault ∨ s.budget.inputPresent = false then none else s.charge.ovLimit }
        budget := { s.budget with
          setpoint := if stage = .precharge ∨ stage = .fast ∨ stage = .taper ∨ stage = .topOff then s.budget.setpoint
            else 0
          charge := if stage = .full then s.budget.cfg.capacity.toNat * 360000 else s.budget.charge
          estimated := if stage = .full then false else s.budget.estimated } }
        (decide (stage = .full ∨ stage = .hold ∨ stage = .fault))
        (.chargeState stage fault (if stage = .hold then s.charge.causes else .clear) v)
    let resume := s.charge.resume
    let counts := fun (run elapsed : Nat) => t = { s with charge := { s.charge with
      runCount := run, elapsed := elapsed, safety := if fast then sum else s.charge.safety } }
    (s.budget.inputPresent = false →
      (s.charge.stage = .idle → t = s) ∧
      (s.charge.stage ≠ .idle → entered .idle 0 none resume)) ∧
    (s.budget.inputPresent = true →
      (s.charge.stage = .fault → t = s) ∧
      (fast → s.charge.profile.safetyLimit ≤ sum → entered .fault 0 (some .timer) resume) ∧
      (s.charge.causes.any = true →
        (s.charge.stage = .hold → t = s) ∧
        (s.charge.stage = .idle ∨ holdable ∧ (fast → (sum : Int) < s.charge.profile.safetyLimit) →
          entered .hold (if s.charge.stage = .precharge then s.charge.elapsed else 0) none
            (if s.charge.causes.profile = true then .qualify else match s.charge.stage with
              | .precharge => .precharge | .fast | .taper | .topOff => .fast | .full => .full | _ => .qualify))) ∧
      (s.charge.causes.any = false → (fast → (sum : Int) < s.charge.profile.safetyLimit) →
        (s.charge.stage = .idle → entered .qualify 0 none resume ∧ t.charge.stageCeiling = 0) ∧
        (s.charge.stage = .hold →
          entered resume (if resume = .precharge then s.charge.elapsed else 0) none resume) ∧
        (s.charge.stage = .qualify →
          (s.charge.elapsed + 1 < 50 → counts s.charge.runCount (s.charge.elapsed + 1)) ∧
          (50 ≤ s.charge.elapsed + 1 →
            (v < 2000 ∨ 4500 < v → entered .fault 0 (some .battery) resume) ∧
            (2000 ≤ v → v ≤ 4500 → v < s.charge.profile.preThreshold → entered .precharge 0 none resume) ∧
            (2000 ≤ v → v ≤ 4500 → s.charge.profile.preThreshold ≤ v → entered .fast 0 none resume))) ∧
        (s.charge.stage = .precharge →
          let run := if s.charge.profile.preThreshold ≤ v then s.charge.runCount + 1 else 0
          let timeUp := s.charge.profile.preMinutes * 6000 ≤ (s.charge.elapsed : Int) + 1
          (10 ≤ run → entered .fast 0 none resume) ∧
          (run < 10 → timeUp → entered .fault 0 (some .timer) resume) ∧
          (run < 10 → ¬timeUp → counts run (s.charge.elapsed + 1))) ∧
        (∀ l, s.charge.stage = .fast → s.charge.profile.zoneVoltage s.charge.zone = some l →
          let run := if l - 20 ≤ v then s.charge.runCount + 1 else 0
          (10 ≤ run → entered .taper 0 none resume) ∧ (run < 10 → counts run s.charge.elapsed)) ∧
        (s.charge.stage = .taper →
          let term := s.charge.profile.termination
          let run := if s.budget.inForce < 2 * term then s.charge.runCount
            else if s.budget.readings.ibat ≤ term then s.charge.runCount + 1 else 0
          (20 ≤ run → entered .topOff 0 none resume) ∧ (run < 20 → counts run s.charge.elapsed)) ∧
        (s.charge.stage = .topOff →
          let timeUp := s.charge.profile.topOffMinutes * 6000 ≤ (s.charge.elapsed : Int) + 1
          (timeUp → entered .full 0 none resume) ∧
          (¬timeUp → counts s.charge.runCount (s.charge.elapsed + 1))) ∧
        (∀ l, s.charge.stage = .full → s.charge.profile.zoneVoltage s.charge.zone = some l →
          (v < l - s.charge.profile.rechargeDrop → entered .fast 0 none resume) ∧
          (l - s.charge.profile.rechargeDrop ≤ v → t = s))))) ∧
  (∀ (c : ChargeController) (r : Readings),
    let zone := settleZone c.profile c.zone r.tbat
    let after := c.settle r
    let judged := c.stage = .fast ∨ c.stage = .taper ∨ c.stage = .topOff ∨ c.stage = .hold ∧ c.resume = .fast
    after.zone = some zone ∧ after.causes.temp = (decide (zone = .cold) || decide (zone = .hot)) ∧
    after.causes.thermal = decide (settleDie c.profile c.die r.tdie = .crit) ∧
    after.causes.inhibit = c.inhibit ∧ after.causes.profile = false ∧
    (c.zone ≠ some zone → c.stage = .fast ∨ c.stage = .taper → after.runCount = 0) ∧
    (∀ l, judged → c.profile.zoneVoltage (some zone) = some l → l < r.vbat →
      after.causes.overVoltage = true ∧ after.ovLimit = some l) ∧
    (¬(judged ∧ ∃ l, c.profile.zoneVoltage (some zone) = some l ∧ l < r.vbat) →
      (after.causes.overVoltage = true ↔ c.causes.overVoltage = true ∧ c.zone = some zone ∧
        ∃ l, c.ovLimit = some l ∧ l - 100 ≤ r.vbat) ∧
      (after.causes.overVoltage = true → after.ovLimit = c.ovLimit))) ∧
  (∀ c : ChargeController,
    let zone := match c.zone with
      | some .cool => c.profile.coolCurrent
      | some .normal => c.profile.normalCurrent
      | some .warm => c.profile.warmCurrent
      | _ => 0
    let full := match c.stage with
      | .precharge => min zone c.profile.preCurrent
      | .fast | .taper | .topOff => zone
      | _ => 0
    c.stageCeiling = if c.die = .warn then truncDiv full 2 else full)

/-- MONITOR_UPDATE at the end of a pass, 10,000 µs after the one before; before that it changes nothing. The readings
are the truncated means of the clamped conversions; the input state is settled from VIN, with INPUT on a change; the
charge is counted, or estimated by the OCV segment the voltage lies in, or set to full as FULL is entered; the charge
controller is settled, with THERMAL on a change of the die level, and takes its stage decision, both as stated in
`QualifyAndFastTests`; the ceiling is the stage's, and the setpoint never above it: it backs off while IIN is above
the effective limit or VIN below its minimum, and rises one ramp step at most, with no grant asked or held; a pending
grant is given where IIN leaves room, the setpoint is 0 or the input ABSENT; the low run counts the updates with the
input ABSENT and the charge or the voltage low, and at 5 an open clip is ordered closed once, with POWER_LOW, or with
no clip open the low state is set, with POWER_LOW (R124, R127, R128, R141, R143, R144, R147, R148, R150, R152, R153,
R154, R155). A rise is a setpoint that goes up (notes/assumptions/17.md). That a MONITOR_UPDATE sent before its time
has no effect is the model's choice (notes/assumptions/34.md). -/
def Obligations.MonitorUpdate : Prop :=
  ∀ (s : State) (conv : Conversions),
    (atOrAfter s.now s.budget.passDue = false → exec (.monitorUpdate conv) s = .next s) ∧
    (atOrAfter s.now s.budget.passDue = true → s.SetpointBounded → ∃ t, exec (.monitorUpdate conv) s = .next t ∧
    (let mean := fun (lo hi : Int) (q : Quad) =>
       Int.tdiv (clampInt lo hi q.c0 + clampInt lo hi q.c1 + clampInt lo hi q.c2 + clampInt lo hi q.c3) 4
     t.budget.readings = ⟨mean 0 5500 conv.vbat, mean (-8000) 8000 conv.ibat, mean 0 24000 conv.vin,
       mean 0 5000 conv.iin, mean (-400) 1500 conv.tbat, mean (-400) 1500 conv.tdie⟩) ∧
    t.budget.updates = s.budget.updates + 1 ∧ t.budget.passDue = later s.budget.passDue 10000 ∧
    (let r := t.budget.readings
     let limit := s.budget.inputLimit - s.budget.cfg.headroom -
       (if s.budget.grant = .none then 0 else s.budget.cfg.burstReserve)
     (s.budget.inputPresent = true → (t.budget.inputPresent = true ↔ s.budget.cfg.absentMv ≤ r.vin)) ∧
     (s.budget.inputPresent = false →
       (t.budget.inputPresent = true ↔ s.budget.cfg.presentMv ≤ r.vin ∧ 2 ≤ s.budget.presenceRun)) ∧
     (t.budget.inputPresent = false → t.charge.stage = .idle ∧ t.budget.setpoint = 0) ∧
     (t.charge.stage = .full → s.charge.stage ≠ .full →
       t.budget.charge = s.budget.cfg.capacity.toNat * 360000 ∧ t.budget.estimated = false) ∧
     (t.charge.stage ≠ .full ∨ s.charge.stage = .full → t.budget.estimated = s.budget.estimated ∧
       (s.budget.estimateDue = false → (t.budget.charge : Int) =
         max 0 (min (s.budget.charge + r.ibat) (s.budget.cfg.capacity.toNat * 360000))) ∧
       (s.budget.estimateDue = true → s.budget.ocv.length = 11 → s.budget.ocv.Pairwise (· < ·) →
         (r.vbat ≤ s.budget.ocv.getD 0 0 → t.budget.charge = 0) ∧
         (s.budget.ocv.getD 10 0 ≤ r.vbat → t.budget.charge = s.budget.cfg.capacity.toNat * 360000) ∧
         (∀ i : Nat, i < 10 → s.budget.ocv.getD 0 0 < r.vbat → s.budget.ocv.getD i 0 ≤ r.vbat →
           r.vbat < s.budget.ocv.getD (i + 1) 0 →
           let width := s.budget.ocv.getD (i + 1) 0 - s.budget.ocv.getD i 0
           t.budget.charge = (roundHalfAway (s.budget.cfg.capacity * 36000 *
             ((i : Int) * width + r.vbat - s.budget.ocv.getD i 0)) width.toNat).toNat))) ∧
     t.budget.estimateDue = false ∧ t.charge.zone = some (settleZone s.charge.profile s.charge.zone r.tbat) ∧
     t.charge.die = settleDie s.charge.profile s.charge.die r.tdie ∧ t.charge.ceiling = t.charge.stageCeiling ∧
     -- the charge controller is what the stage decision leaves on the settled state, with the notices of the update
     (let input := s.raiseIf (t.budget.inputPresent != s.budget.inputPresent) (.input t.budget.inputPresent r.vin)
      let told := input.raiseIf (decide (t.charge.die ≠ s.charge.die)) (.thermal t.charge.die r.tdie)
      let decided := State.decideStage { told with
        charge := s.charge.settle r
        budget := { s.budget with readings := r, inputPresent := t.budget.inputPresent } }
      let chargeLow := t.budget.charge ≤ s.budget.cfg.closeReserve.toNat * 360000
      let voltageLow := r.vbat ≤ s.budget.cfg.cutoff
      let warned := t.budget.inputPresent = false ∧ (chargeLow ∨ voltageLow) ∧ 4 ≤ s.budget.lowRun ∧
        if s.clip.state = .idle then s.budget.lowState = false else s.budget.ordered = false
      let last := State.arbitrate (decided.raiseIf (decide warned) (.powerLow
        (if chargeLow ∧ voltageLow then .both else if chargeLow then .charge else .voltage)
        (t.budget.charge * 100 / (s.budget.cfg.capacity.toNat * 360000)) r.vbat (decide (s.clip.state ≠ .idle))))
      t.charge = { decided.charge with ceiling := decided.charge.stageCeiling } ∧
      t.link = last.link ∧ t.frame = last.frame ∧ t.freeCount = s.freeCount ∧ t.pending = s.pending) ∧
     t.budget.inForce = t.budget.setpoint ∧ t.budget.limitEff = limit ∧
     0 ≤ t.budget.setpoint ∧ t.budget.setpoint ≤ t.charge.ceiling ∧
     (t.charge.stage = s.charge.stage → t.charge.stage.isRest = false →
       let low := min s.budget.setpoint t.charge.ceiling
       (limit < r.iin ∨ r.vin < s.budget.cfg.vinMin →
         t.budget.setpoint = max (low - s.charge.profile.backOff) 0) ∧
       (r.iin ≤ limit → s.budget.cfg.vinMin ≤ r.vin →
         (r.iin < limit - s.budget.cfg.band → s.budget.grant = .none →
           (∀ n, s.budget.sinceRise = some n → max (Int.tdiv s.charge.profile.rampMs 10).toNat 1 ≤ min (n + 1) 100) →
           t.budget.setpoint = min (low + s.charge.profile.rampStep) t.charge.ceiling) ∧
         (∀ n, s.budget.sinceRise = some n → min (n + 1) 100 < max (Int.tdiv s.charge.profile.rampMs 10).toNat 1 →
           t.budget.setpoint = low) ∧
         (s.budget.grant ≠ .none ∨ limit - s.budget.cfg.band ≤ r.iin → t.budget.setpoint = low))) ∧
     (s.budget.grant = .pending → (t.budget.grant = .held ↔
       r.iin ≤ limit ∨ t.budget.setpoint = 0 ∨ t.budget.inputPresent = false)) ∧
     (s.budget.grant ≠ .pending → t.budget.grant = s.budget.grant) ∧
     (let low := t.budget.inputPresent = false ∧
        (t.budget.charge ≤ s.budget.cfg.closeReserve.toNat * 360000 ∨ r.vbat ≤ s.budget.cfg.cutoff)
      (¬low → t.budget.lowRun = 0 ∧ t.budget.lowState = false ∧ t.budget.orderPending = s.budget.orderPending) ∧
      (low → t.budget.lowRun = min (s.budget.lowRun + 1) 5) ∧
      (low → 4 ≤ s.budget.lowRun → t.budget.lowState = true ∨ s.clip.state ≠ .idle ∧ s.budget.ordered = true) ∧
      (low → 4 ≤ s.budget.lowRun → s.clip.state ≠ .idle → s.budget.ordered = false →
        t.budget.ordered = true ∧ t.budget.orderPending = true) ∧
      (s.clip.state = .idle ∨ s.budget.ordered = true ∨ s.budget.lowRun < 4 →
        t.budget.ordered = s.budget.ordered ∧ t.budget.orderPending = s.budget.orderPending))) ∧
    t.capture = s.capture ∧ t.imu = s.imu ∧ t.motion = s.motion ∧ t.buffer = s.buffer ∧ t.clip = s.clip ∧
    t.card = s.card ∧ t.pins = s.pins ∧ t.budget.cfg = s.budget.cfg ∧ t.budget.ocv = s.budget.ocv ∧
    t.charge.profile = s.charge.profile)

/-- EMERGENCY_CLOSE of an order that waits: in IDLE and EMERGENCY it changes nothing more; otherwise, in this order,
the accumulator hands over its records as one chunk and closes, the emergency limit is the acknowledged front plus the
budget, times 512, or the capacity, a ROLLOVER or FORCED close is cancelled and a DAMAGED one stands, its withdrawn
chunks and all after them discarded, of chunks already placed none stays that ends past the limit, and a flush is
requested with the last descriptor then queued as its mark; with nothing queued and no record waiting, the segment
closes EMERGENCY at once and the clip is over (R54, R55, R71, R76, R95, R97, R100). That the event without an order
has no effect is the model's choice (notes/assumptions/7.md). -/
def Obligations.EmergencyClose : Prop :=
  ∀ s : State,
    (s.budget.orderPending = false → exec .emergencyClose s = .next s) ∧
    (s.budget.orderPending = true →
      (s.clip.state = .idle ∨ s.clip.state = .emergency →
        exec .emergencyClose s = .next { s with budget := { s.budget with orderPending := false } }) ∧
      (s.clip.state ≠ .idle → s.clip.state ≠ .emergency →
        let begun := { s with
          budget := { s.budget with orderPending := false }, clip := { s.clip with state := .emergency }
          frame := { s.frame with accOpen := false, acc := [] } }
        let handed := if s.frame.accOpen = true ∧ s.frame.acc ≠ [] then begun.enqueueMotion s.frame.acc else begun
        let bounded := handed.boundEmergency
        exec .emergencyClose s = .next (State.conclude (bounded.requestFlush bounded.buffer.lastQueued)) ∧
        (s.clip.filling = none → bounded = handed) ∧
        (∀ f, s.clip.filling = some f →
          let limit := min ((f.front + s.clip.cfg.emergencyBudget) * 512) (f.contrib.sum * 512)
          let cancelled := { f with
            limit := limit, pending := if f.pending = some .damaged then some .damaged else none }
          -- nothing withdrawn to discard, nothing placed past the limit
          ((f.pending = some .damaged → ∀ c ∈ s.buffer.queue, c.state = .placed → c.place ≠ none) →
            (∀ c o, c ∈ s.buffer.queue → c.place = some o → o + (16 + c.length) ≤ limit) →
            bounded = { handed with clip := { handed.clip with filling := some cancelled } }) ∧
          -- the withdrawn chunks of a DAMAGED close
          (∀ q w rest, s.buffer.queue = q ++ w :: rest → f.pending = some .damaged → w.state = .placed →
            w.place = none → (∀ c ∈ q, c.seq ≠ w.seq ∧ (c.state = .placed → c.place ≠ none)) →
            (∀ c o, c ∈ q → c.place = some o → o + (16 + c.length) ≤ limit) →
            bounded.buffer.queue = q ∧ bounded.clip.filling = some cancelled ∧
            bounded.buffer.discarded = s.buffer.discarded +
              BitVec.ofNat 32 (handed.buffer.queue.length - q.length)) ∧
          -- the chunks placed past the limit
          (∀ q c rest o, s.buffer.queue = q ++ c :: rest → f.pending ≠ some .damaged → c.place = some o →
            limit < o + (16 + c.length) → (∀ e ∈ q, e.seq ≠ c.seq) →
            (∀ e o', e ∈ q → e.place = some o' → o' + (16 + e.length) ≤ limit) →
            bounded.buffer.queue = q ∧ ∃ f', bounded.clip.filling = some f' ∧ f'.slot = f.slot ∧ f'.limit = limit ∧
              f'.pending = none ∧ f'.front = f.front ∧
              ∀ e o', (q.filter (fun e => e.place.isSome)).getLast? = some e → e.place = some o' →
                let pos := o' + (16 + e.length)
                f'.placement = if f.front ≤ pos / 512 then (pos + 511) / 512 * 512 else pos)) ∧
        ∃ t, exec .emergencyClose s = .next t ∧ t.budget.orderPending = false ∧ t.frame.accOpen = false ∧
          t.frame.acc = [] ∧ (t.clip.state = .emergency ∨ t.clip.state = .idle) ∧
          (t.clip.state = .idle → t.buffer.queue = []) ∧
          (∀ f, s.clip.filling = some f →
            let limit := min ((f.front + s.clip.cfg.emergencyBudget) * 512) (f.contrib.sum * 512)
            (∀ f', t.clip.filling = some f' → f'.slot = f.slot ∧ f'.limit = limit) ∧
            (s.frame.acc = [] → (∀ c ∈ s.buffer.queue, c.place ≠ none) →
              ∀ c o, c ∈ t.buffer.queue → c.place = some o → o + (16 + c.length) ≤ limit) ∧
            (s.buffer.queue = [] → s.frame.acc = [] → f.pending = none → t.clip = { s.clip with
              state := .idle, filling := none, closeCounter := s.clip.closeCounter + 1
              slots := s.clip.slots.setIfInBounds f.slot { s.clip.slot f.slot with
                state := .closed, endTime := some s.now, closeSeq := some (s.clip.closeCounter + 1),
                streamLen := f.placement, endReason := some .emergency } }))))

/-- A notice raised joins its kind's entry, whose count rises by one up to 65535 and whose argument becomes the new
one, or a new entry at the tail with count 1; the other entries and their order stay (R166). -/
def Obligations.NoticeRaised : Prop :=
  ∀ (s : State) (n : Notice),
    ((∀ e ∈ s.link.notices, e.notice.kind ≠ n.kind) →
      s.raise n = { s with link := { s.link with notices := s.link.notices ++ [⟨1, n⟩] } }) ∧
    (∀ a e b, s.link.notices = a ++ e :: b → e.notice.kind = n.kind →
      (∀ x ∈ a ++ b, x.notice.kind ≠ n.kind) →
      s.raise n = { s with link := { s.link with notices := a ++ ⟨min (e.count + 1) 65535, n⟩ :: b } })

/-! ### What every step keeps -/

/-- Every page is free or held by exactly one chunk; accepted chunks are written, queued or discarded; the queue holds
at most 256; HOLD is asserted exactly while the buffer is short of room; and the page memory is in its canonical form
(R60, R62, R68, R72). -/
def Obligations.BufferKept : Prop :=
  ∀ s t : State, s.buffer.PagesKept → s.buffer.Balanced → s.buffer.Bounded → step s = .next t →
    t.buffer.PagesKept ∧ t.buffer.Balanced ∧ t.buffer.Bounded

/-- At most one segment is FILLING and only while a clip is open; with no clip open the queue is empty, and the
accumulator is open only while recording; and the protected segments stay within the limit in force (R53, R87, R90).
-/
def Obligations.ClipKept : Prop :=
  ∀ s t : State, s.clip.OneFilling → s.ClipAtRest → s.clip.WithinLimit → step s = .next t →
    t.clip.OneFilling ∧ t.ClipAtRest ∧ t.clip.WithinLimit

/-- The card is in RUN only while a burst grant is held; the bad-granule list, the log and the suppression set keep to
their sizes; at most eight requests are outstanding, the notice set holds each kind once with a count of 1 to 65535,
and the send list holds at most eight records (R51, R106, R112, R116, R117, R159, R166). -/
def Obligations.CardAndLinkKept : Prop :=
  ∀ s t : State, s.RunGranted → s.card.Bounded → s.LinkBounded → step s = .next t →
    t.RunGranted ∧ t.card.Bounded ∧ t.LinkBounded

/-- The setpoint stays between 0 and the ceiling of the stage and zone in force, through every command, load and
update (R128, R141, R148). -/
def Obligations.SetpointKept : Prop :=
  ∀ s t : State, s.SetpointBounded → step s = .next t → t.SetpointBounded

/-- The state after reset has every property that a step keeps. -/
def Obligations.ResetHasInvariants : Prop :=
  State.reset.buffer.PagesKept ∧ State.reset.buffer.Balanced ∧ State.reset.buffer.Bounded ∧
  State.reset.clip.OneFilling ∧ State.reset.ClipAtRest ∧ State.reset.clip.WithinLimit ∧ State.reset.RunGranted ∧
  State.reset.card.Bounded ∧ State.reset.SetpointBounded ∧ State.reset.LinkBounded
end

