-- ==== Sys2Proof/Laws/Ops.lean ====
section
/-! SUPPORT. The laws of the shared operations: clock comparison, the page memory, the notice set. -/
namespace Sys2Proof.Machine

/-! ### Ride clock comparison (R1) -/

/-- A clock value is at or after itself. -/
@[simp] theorem atOrAfter_self (a : Time) : atOrAfter a a = true := by simp [atOrAfter]

/-- A deadline that is not set is never reached. -/
@[simp] theorem reached_none (t : Time) : reached t none = false := rfl

@[simp] theorem reached_some (t d : Time) : reached t (some d) = atOrAfter t d := rfl

/-! ### The page memory (R60) -/

/-- Every address listed is at least `lo`. -/
def ramFrom (lo : Nat) (ram : List Host.Cell) : Prop := ∀ c ∈ ram, lo ≤ c.1

theorem ramWf_cons (k : Nat) (v : Byte) (rest : List Host.Cell) :
    ramWf ((k, v) :: rest) = true ↔ v ≠ ramDefault ∧ ramFrom (k + 1) rest ∧ ramWf rest = true := by
  induction rest generalizing k v with
  | nil => simp [ramWf, ramFrom]
  | cons c rest ih =>
    obtain ⟨k', v'⟩ := c
    have step : ramWf ((k, v) :: (k', v') :: rest) = true ↔
        v ≠ ramDefault ∧ k < k' ∧ ramWf ((k', v') :: rest) = true := by
      simp [ramWf, and_assoc]
    rw [step]
    constructor
    · rintro ⟨hv, hk, hw⟩
      refine ⟨hv, ?_, hw⟩
      intro c hc
      rcases List.mem_cons.1 hc with rfl | hc
      · exact hk
      · have := ((ih k' v').1 hw).2.1 c hc
        omega
    · rintro ⟨hv, hf, hw⟩
      exact ⟨hv, hf (k', v') (by simp), hw⟩

theorem ramWrite_from (lo : Nat) (ram : List Host.Cell) (a : Nat) (b : Byte) (ha : lo ≤ a) (h : ramFrom lo ram) :
    ramFrom lo (ramWrite ram a b) := by
  induction ram with
  | nil =>
    intro c hc
    unfold ramWrite at hc
    split at hc <;> simp_all
  | cons c rest ih =>
    obtain ⟨k, v⟩ := c
    have hk : lo ≤ k := h (k, v) (by simp)
    have hr : ramFrom lo rest := fun c hc => h c (by simp [hc])
    intro c hc
    unfold ramWrite at hc
    split at hc
    · split at hc
      · exact h c hc
      · rcases List.mem_cons.1 hc with rfl | hc
        · exact ha
        · exact h c hc
    · split at hc
      · split at hc
        · exact hr c hc
        · rcases List.mem_cons.1 hc with rfl | hc
          · exact ha
          · exact hr c hc
      · rcases List.mem_cons.1 hc with rfl | hc
        · exact hk
        · exact ih hr c hc

/-- Storing a byte keeps the canonical form. -/
theorem ramWrite_wf (ram : List Host.Cell) (a : Nat) (b : Byte) (h : ramWf ram = true) :
    ramWf (ramWrite ram a b) = true := by
  induction ram with
  | nil =>
    unfold ramWrite
    split
    · rfl
    · simpa [ramWf] using ‹¬b = ramDefault›
  | cons c rest ih =>
    obtain ⟨k, v⟩ := c
    obtain ⟨hv, hf, hw⟩ := (ramWf_cons k v rest).1 h
    unfold ramWrite
    split
    · split
      · exact h
      · refine (ramWf_cons _ _ _).2 ⟨‹_›, ?_, h⟩
        intro c hc
        rcases List.mem_cons.1 hc with rfl | hc
        · show a + 1 ≤ k
          omega
        · have := hf c hc
          omega
    · split
      · split
        · exact hw
        · refine (ramWf_cons _ _ _).2 ⟨‹_›, ?_, hw⟩
          intro c hc
          have := hf c hc
          omega
      · exact (ramWf_cons _ _ _).2 ⟨hv, ramWrite_from _ _ _ _ (by omega) hf, ih hw⟩

theorem ramRead_from (lo : Nat) (ram : List Host.Cell) (a : Nat) (h : ramFrom lo ram) (ha : a < lo) :
    ramRead ram a = ramDefault := by
  induction ram with
  | nil => rfl
  | cons c rest ih =>
    obtain ⟨k, v⟩ := c
    have : lo ≤ k := h (k, v) (by simp)
    rw [ramRead, if_neg (by omega)]
    exact ih (fun c hc => h c (by simp [hc]))

/-- A byte reads as it was last stored. -/
theorem ramRead_ramWrite_same (ram : List Host.Cell) (a : Nat) (b : Byte) (h : ramWf ram = true) :
    ramRead (ramWrite ram a b) a = b := by
  induction ram with
  | nil =>
    unfold ramWrite
    split <;> simp_all [ramRead]
  | cons c rest ih =>
    obtain ⟨k, v⟩ := c
    obtain ⟨-, hf, hw⟩ := (ramWf_cons k v rest).1 h
    unfold ramWrite
    split
    · split
      · subst b
        rw [ramRead, if_neg (by omega)]
        exact ramRead_from (k + 1) rest a hf (by omega)
      · simp [ramRead]
    · split
      · split
        · subst b
          subst a
          exact ramRead_from (k + 1) rest k hf (by omega)
        · simp [ramRead]
      · rw [ramRead, if_neg (by omega)]
        exact ih hw

/-- Storing a byte leaves every other byte as it was. -/
theorem ramRead_ramWrite_other (ram : List Host.Cell) (a x : Nat) (b : Byte) (h : ramWf ram = true) (hx : x ≠ a) :
    ramRead (ramWrite ram a b) x = ramRead ram x := by
  induction ram with
  | nil =>
    unfold ramWrite
    split
    · rfl
    · simp [ramRead, Ne.symm hx]
  | cons c rest ih =>
    obtain ⟨k, v⟩ := c
    obtain ⟨-, hf, hw⟩ := (ramWf_cons k v rest).1 h
    unfold ramWrite
    split
    · split
      · rfl
      · rw [ramRead, if_neg (Ne.symm hx)]
    · split
      · subst a
        split
        · rw [show ramRead ((k, v) :: rest) x = ramRead rest x from by rw [ramRead, if_neg (Ne.symm hx)]]
        · simp [ramRead, Ne.symm hx]
      · by_cases hk : k = x
        · simp [ramRead, hk]
        · simp [ramRead, hk, ih hw]

/-- Storing bytes in a chunk's pages keeps the canonical form. -/
theorem ramStore_wf (pages : List Nat) (off : Nat) (bs : List Byte) (ram : List Host.Cell) (h : ramWf ram = true) :
    ramWf (ramStore pages off bs ram) = true := by
  induction bs generalizing off ram with
  | nil => exact h
  | cons b bs ih => exact ih _ _ (ramWrite_wf _ _ _ h)

/-- Storing bytes in a chunk's pages leaves every byte outside the addresses stored to as it was. -/
theorem ramRead_ramStore_other (pages : List Nat) (off : Nat) (bs : List Byte) (ram : List Host.Cell) (x : Nat)
    (h : ramWf ram = true) (hx : ∀ i, i < bs.length → x ≠ pageAddress pages (off + i)) :
    ramRead (ramStore pages off bs ram) x = ramRead ram x := by
  induction bs generalizing off ram with
  | nil => rfl
  | cons b bs ih =>
    rw [ramStore, ih _ _ (ramWrite_wf _ _ _ h), ramRead_ramWrite_other _ _ _ _ h]
    · exact hx 0 (by simp)
    · intro i hi
      have := hx (i + 1) (by simpa using hi)
      rwa [Nat.add_assoc, Nat.add_comm 1 i]

/-- The page memory is canonical at power-on. -/
theorem reset_ram_wf : ramWf State.reset.buffer.ram = true := rfl

/-! ### The notice set (R166) -/

/-- The kinds that have an entry. -/
def noticeKinds (ns : List NoticeEntry) : List NoticeKind := ns.map (fun e => e.notice.kind)

/-- Raising a notice changes the kinds that have an entry only by adding its own at the tail. -/
theorem noticeKinds_noticeAdd (ns : List NoticeEntry) (n : Notice) :
    noticeKinds (noticeAdd ns n) = if n.kind ∈ noticeKinds ns then noticeKinds ns else noticeKinds ns ++ [n.kind] := by
  unfold noticeAdd
  by_cases h : n.kind ∈ noticeKinds ns
  · have h' : ns.any (fun e => decide (e.notice.kind = n.kind)) = true := by
      obtain ⟨e, he, hk⟩ := List.mem_map.1 h
      exact List.any_eq_true.2 ⟨e, he, by simpa using hk⟩
    rw [if_pos h', if_pos h]
    unfold noticeKinds
    rw [List.map_map]
    refine List.map_congr_left fun e _ => ?_
    by_cases hk : e.notice.kind = n.kind <;> simp [hk]
  · have h' : ns.any (fun e => decide (e.notice.kind = n.kind)) = false := by
      rw [Bool.eq_false_iff]
      intro ha
      obtain ⟨e, he, hk⟩ := List.any_eq_true.1 ha
      exact h (List.mem_map.2 ⟨e, he, by simpa using hk⟩)
    rw [h', if_neg h]
    simp [noticeKinds]

/-- Raising a notice keeps the kinds distinct. -/
theorem noticeAdd_nodup (ns : List NoticeEntry) (n : Notice) (h : (noticeKinds ns).Nodup) :
    (noticeKinds (noticeAdd ns n)).Nodup := by
  rw [noticeKinds_noticeAdd]
  split
  · exact h
  · simp only [List.nodup_append, List.nodup_singleton, List.mem_singleton]
    exact ⟨h, trivial, fun a ha b hb e => by simp_all⟩

/-- Raising a notice keeps every count within 1 to 65535. -/
theorem noticeAdd_counts (ns : List NoticeEntry) (n : Notice) (h : ∀ e ∈ ns, 1 ≤ e.count ∧ e.count ≤ 65535) :
    ∀ e ∈ noticeAdd ns n, 1 ≤ e.count ∧ e.count ≤ 65535 := by
  unfold noticeAdd
  split
  · intro e he
    obtain ⟨e', he', rfl⟩ := List.mem_map.1 he
    have := h e' he'
    split
    · constructor
      · show 1 ≤ min (e'.count + 1) 65535
        omega
      · show min (e'.count + 1) 65535 ≤ 65535
        omega
    · exact this
  · intro e he
    rcases List.mem_append.1 he with he | he
    · exact h e he
    · simp at he
      subst he
      exact ⟨by simp, by simp⟩

end Sys2Proof.Machine
end

