-- ==== Sys2Proof/Laws/Buffer.lean ====
section
/-! SUPPORT. What each operation of the chunk buffer does to its pages, its counts and its size. -/
namespace Sys2Proof.Machine

namespace ChunkBuffer

variable (b : ChunkBuffer)

/-! ### What the operations leave -/

@[simp] theorem clearFlush_queue : b.clearFlush.queue = b.queue := by
  unfold clearFlush; split <;> (try split) <;> rfl
@[simp] theorem clearFlush_free : b.clearFlush.free = b.free := by
  unfold clearFlush; split <;> (try split) <;> rfl
@[simp] theorem clearFlush_accepted : b.clearFlush.accepted = b.accepted := by
  unfold clearFlush; split <;> (try split) <;> rfl
@[simp] theorem clearFlush_written : b.clearFlush.written = b.written := by
  unfold clearFlush; split <;> (try split) <;> rfl
@[simp] theorem clearFlush_discarded : b.clearFlush.discarded = b.discarded := by
  unfold clearFlush; split <;> (try split) <;> rfl
@[simp] theorem clearFlush_ram : b.clearFlush.ram = b.ram := by
  unfold clearFlush; split <;> (try split) <;> rfl
@[simp] theorem clearFlush_hold : b.clearFlush.hold = b.hold := by
  unfold clearFlush; split <;> (try split) <;> rfl

@[simp] theorem syncLatency_queue (now : Time) (ms : Nat) : (b.syncLatency now ms).queue = b.queue := by
  simp only [syncLatency]; split <;> rfl
@[simp] theorem syncLatency_free (now : Time) (ms : Nat) : (b.syncLatency now ms).free = b.free := by
  simp only [syncLatency]; split <;> rfl
@[simp] theorem syncLatency_hold (now : Time) (ms : Nat) : (b.syncLatency now ms).hold = b.hold := by
  simp only [syncLatency]; split <;> rfl
@[simp] theorem syncLatency_ram (now : Time) (ms : Nat) : (b.syncLatency now ms).ram = b.ram := by
  simp only [syncLatency]; split <;> rfl
@[simp] theorem syncLatency_accepted (now : Time) (ms : Nat) : (b.syncLatency now ms).accepted = b.accepted := by
  simp only [syncLatency]; split <;> rfl
@[simp] theorem syncLatency_written (now : Time) (ms : Nat) : (b.syncLatency now ms).written = b.written := by
  simp only [syncLatency]; split <;> rfl
@[simp] theorem syncLatency_discarded (now : Time) (ms : Nat) : (b.syncLatency now ms).discarded = b.discarded := by
  simp only [syncLatency]; split <;> rfl

@[simp] theorem syncHold_queue : b.syncHold.queue = b.queue := rfl
@[simp] theorem syncHold_free : b.syncHold.free = b.free := rfl
@[simp] theorem syncHold_ram : b.syncHold.ram = b.ram := rfl
@[simp] theorem syncHold_accepted : b.syncHold.accepted = b.accepted := rfl
@[simp] theorem syncHold_written : b.syncHold.written = b.written := rfl
@[simp] theorem syncHold_discarded : b.syncHold.discarded = b.discarded := rfl
@[simp] theorem syncHold_hold : b.syncHold.hold = b.short := rfl

/-- Bringing the latency deadline up to date leaves the buffer's shortage of room as it was. -/
@[simp] theorem syncLatency_short (now : Time) (ms : Nat) : (b.syncLatency now ms).short = b.short := by
  simp [short, freeDescriptors]

@[simp] theorem syncHold_short : b.syncHold.short = b.short := rfl

/-! ### The flush mark (R76, R78) -/

/-- A pending flush goes with its mark, and stays while the mark is queued (R78). -/
theorem clearFlush_eq : b.clearFlush =
    { b with flush := b.flush.filter (fun m => decide (m ∈ b.queue.map Chunk.seq)) } := by
  have h : ∀ m, (m ∈ b.queue.map Chunk.seq) ↔ b.queue.any (fun c => decide (c.seq = m)) = true := by
    intro m; simp [List.any_eq_true]
  unfold clearFlush
  cases hf : b.flush with
  | none => show b = { b with flush := none }; rw [← hf]
  | some m =>
    simp only [Option.filter]
    split
    · rename_i hm; simp only [(h m).2 hm, decide_true, if_true]; rw [← hf]
    · rename_i hm; simp only [mt (h m).1 hm, decide_false, Bool.false_eq_true, if_false]

/-- The descriptors that have become WRITTEN leave from the head (R70). -/
theorem popWritten_eq : b.popWritten = { b with
    queue := b.queue.dropWhile Chunk.isWritten
    free := b.free ++ (b.queue.takeWhile Chunk.isWritten).flatMap Chunk.pages
    written := b.written + BitVec.ofNat 32 (b.queue.takeWhile Chunk.isWritten).length
    flush := b.flush.filter (fun m => decide (m ∈ (b.queue.dropWhile Chunk.isWritten).map Chunk.seq)) } := by
  unfold popWritten; rw [clearFlush_eq]; rfl

/-- A descriptor and all after it discarded, where none before it has its sequence number (R71). -/
theorem discardFrom_eq {q : List Chunk} {c : Chunk} {rest : List Chunk} (hq : b.queue = q ++ c :: rest)
    (hs : ∀ d ∈ q, d.seq ≠ c.seq) : b.discardFrom c.seq = { b with
    queue := q, free := b.free ++ (c :: rest).flatMap Chunk.pages
    discarded := b.discarded + BitVec.ofNat 32 (rest.length + 1)
    flush := b.flush.filter (fun m => decide (m ∈ q.map Chunk.seq)) } := by
  have hix : b.indexOf c.seq = q.length := by
    unfold indexOf
    rw [hq, List.findIdx_append, if_neg]
    · simp [List.findIdx_cons]
    · rw [List.findIdx_lt_length]
      rintro ⟨x, hx, hxs⟩
      exact hs x hx (by simpa using hxs)
  unfold discardFrom
  rw [hix, hq, clearFlush_eq]
  simp only [List.take_left', List.drop_left']
  rfl

/-- Of a pending mark and a requested one the later in the queue stands (R76). -/
theorem combineMark_eq (mark : Word32) : b.combineMark mark = match b.flush with
    | none => mark
    | some m => if m ∈ (b.queue.takeWhile (fun e => decide (e.seq ≠ mark))).map Chunk.seq then mark else m := by
  have hk : ∀ (l : List Chunk) (m : Word32),
      (l.findIdx (fun c => decide (c.seq = mark)) ≤ l.findIdx (fun c => decide (c.seq = m))) ↔
      ¬m ∈ (l.takeWhile (fun e => decide (e.seq ≠ mark))).map Chunk.seq := by
    intro l m
    induction l with
    | nil => simp
    | cons y l ih =>
      rw [List.findIdx_cons, List.findIdx_cons, List.takeWhile_cons]
      by_cases h1 : y.seq = mark
      · simp [h1]
      · by_cases h2 : y.seq = m
        · simp [h2]; grind
        · simp [h1, h2]
          simp at ih
          rw [ih]
          grind
  unfold combineMark indexOf
  cases b.flush with
  | none => rfl
  | some m =>
    simp only
    by_cases h : m ∈ (b.queue.takeWhile (fun e => decide (e.seq ≠ mark))).map Chunk.seq
    · rw [if_neg (by rw [hk]; simpa using h)]; simp only [h, if_true]
    · rw [if_pos ((hk _ _).2 h)]; simp only [h, if_false]

/-! ### Pages (R60) -/

/-- Two buffers with the same free list, and queues that hold the same pages in the same order, are alike in pages. -/
theorem PagesKept.congr {b c : ChunkBuffer} (h : b.PagesKept) (hf : c.free = b.free)
    (hq : c.queue.flatMap Chunk.pages = b.queue.flatMap Chunk.pages) : c.PagesKept := by
  unfold PagesKept at *; rw [hf, hq]; exact h

/-- A descriptor created takes its pages from the free list. -/
theorem PagesKept.create {b : ChunkBuffer} (h : b.PagesKept) (kind : ChunkKind) (key : Bool) (t : Time)
    (arrival : Option Time) (length : Nat) (state : ChunkState) :
    (b.create kind key t arrival length state).PagesKept := by
  unfold PagesKept at *
  refine List.Perm.trans ?_ h
  simp only [ChunkBuffer.create, List.flatMap_append, List.flatMap_cons, List.flatMap_nil, List.append_nil]
  rw [← List.append_assoc]
  refine (List.perm_append_comm).trans ?_
  rw [← List.append_assoc, List.take_append_drop]

/-- Descriptors that leave return their pages. -/
theorem PagesKept.leave {b c : ChunkBuffer} (h : b.PagesKept) (kept gone : List Chunk)
    (hp : (kept ++ gone).Perm b.queue) (hq : c.queue = kept) (hf : c.free = b.free ++ gone.flatMap Chunk.pages) :
    c.PagesKept := by
  unfold PagesKept at *
  refine List.Perm.trans ?_ h
  rw [hq, hf, List.append_assoc]
  refine List.Perm.append_left _ ?_
  rw [← List.flatMap_append]
  exact List.Perm.flatMap_right _ (List.perm_append_comm.trans hp)

/-- The kept and the discarded part of a queue together are the queue. -/
theorem filter_split (q : List Chunk) (p : Chunk → Bool) :
    (q.filter (fun c => !p c) ++ q.filter p).Perm q := by
  have h := List.filter_append_perm p q
  exact List.perm_append_comm.trans h

theorem PagesKept.discardWhere {b : ChunkBuffer} (h : b.PagesKept) (p : Chunk → Bool) :
    (b.discardWhere p).PagesKept :=
  h.leave _ _ (filter_split b.queue p) (by simp [ChunkBuffer.discardWhere]) (by simp [ChunkBuffer.discardWhere])

theorem PagesKept.discardFrom {b : ChunkBuffer} (h : b.PagesKept) (seq : Word32) : (b.discardFrom seq).PagesKept :=
  h.leave (b.queue.take (b.indexOf seq)) (b.queue.drop (b.indexOf seq)) (by rw [List.take_append_drop])
    (by simp [ChunkBuffer.discardFrom]) (by simp [ChunkBuffer.discardFrom])

theorem PagesKept.popWritten {b : ChunkBuffer} (h : b.PagesKept) : b.popWritten.PagesKept :=
  h.leave (b.queue.dropWhile Chunk.isWritten) b.writtenHead
    (by unfold writtenHead; exact List.perm_append_comm.trans (by rw [List.takeWhile_append_dropWhile]))
    (by simp [ChunkBuffer.popWritten]) (by simp [ChunkBuffer.popWritten])

/-- Changing descriptors in place without touching their pages. -/
theorem PagesKept.mapQueue {b : ChunkBuffer} (h : b.PagesKept) (f : Chunk → Chunk)
    (hf : ∀ c, (f c).pages = c.pages) : (b.mapQueue f).PagesKept :=
  h.congr rfl (by
    simp only [ChunkBuffer.mapQueue, List.flatMap_map]
    exact congrArg (fun g => b.queue.flatMap g) (funext hf))

theorem PagesKept.storePayload {b : ChunkBuffer} (h : b.PagesKept) (pages : List Nat) (bs : List Byte) :
    (b.storePayload pages bs).PagesKept := h

/-! ### The balance (R72) -/

/-- Buffers with the same counts and queues of one length are alike in balance. -/
theorem Balanced.congr {b c : ChunkBuffer} (h : b.Balanced) (ha : c.accepted = b.accepted)
    (hw : c.written = b.written) (hd : c.discarded = b.discarded) (hq : c.queue.length = b.queue.length) :
    c.Balanced := by
  unfold Balanced at *; rw [ha, hw, hd, hq]; exact h

theorem ofNat_add_length (m n : Nat) : BitVec.ofNat 32 (m + n) = BitVec.ofNat 32 m + BitVec.ofNat 32 n :=
  BitVec.ofNat_add m n

theorem Balanced.create {b : ChunkBuffer} (h : b.Balanced) (kind : ChunkKind) (key : Bool) (t : Time)
    (arrival : Option Time) (length : Nat) (state : ChunkState) :
    (b.create kind key t arrival length state).Balanced := by
  unfold Balanced at *
  simp only [ChunkBuffer.create, List.length_append, List.length_singleton, ofNat_add_length, h]
  show b.written + BitVec.ofNat 32 b.queue.length + b.discarded + 1#32 = _
  ac_rfl

/-- Descriptors that leave are counted as discarded. -/
theorem Balanced.discarding {b c : ChunkBuffer} (h : b.Balanced) (gone : Nat)
    (hq : c.queue.length + gone = b.queue.length) (ha : c.accepted = b.accepted) (hw : c.written = b.written)
    (hd : c.discarded = b.discarded + BitVec.ofNat 32 gone) : c.Balanced := by
  unfold Balanced at *
  rw [ha, hw, hd, h, ← hq, ofNat_add_length]
  ac_rfl

theorem Balanced.discardWhere {b : ChunkBuffer} (h : b.Balanced) (p : Chunk → Bool) : (b.discardWhere p).Balanced :=
  h.discarding (b.queue.filter p).length
    (by
      have := (filter_split b.queue p).length_eq
      simpa [ChunkBuffer.discardWhere] using this)
    (by simp [ChunkBuffer.discardWhere]) (by simp [ChunkBuffer.discardWhere]) (by simp [ChunkBuffer.discardWhere])

theorem Balanced.discardFrom {b : ChunkBuffer} (h : b.Balanced) (seq : Word32) : (b.discardFrom seq).Balanced :=
  h.discarding (b.queue.drop (b.indexOf seq)).length
    (by
      have := congrArg List.length (List.take_append_drop (b.indexOf seq) b.queue)
      rw [List.length_append] at this
      simpa [ChunkBuffer.discardFrom] using this)
    (by simp [ChunkBuffer.discardFrom]) (by simp [ChunkBuffer.discardFrom]) (by simp [ChunkBuffer.discardFrom])

theorem Balanced.popWritten {b : ChunkBuffer} (h : b.Balanced) : b.popWritten.Balanced := by
  have hl : b.writtenHead.length + (b.queue.dropWhile Chunk.isWritten).length = b.queue.length := by
    unfold writtenHead
    rw [← List.length_append, List.takeWhile_append_dropWhile]
  unfold Balanced at *
  simp only [ChunkBuffer.popWritten, clearFlush_accepted, clearFlush_written, clearFlush_queue, clearFlush_discarded]
  rw [h, ← hl, ofNat_add_length]
  ac_rfl

theorem Balanced.mapQueue {b : ChunkBuffer} (h : b.Balanced) (f : Chunk → Chunk) : (b.mapQueue f).Balanced :=
  h.congr rfl rfl rfl (by simp [ChunkBuffer.mapQueue])

end ChunkBuffer

end Sys2Proof.Machine
end

