-- ==== Sys2Proof/Laws/State.lean ====
section
/-! SUPPORT. What each named update of the state leaves in each field: one lemma for each field and update, true by
`rfl`, so that no proof unfolds a record update. -/
namespace Sys2Proof.Machine

variable (s : State)

/-! ### `State.setChannel` -/

@[simp] theorem State.setChannel_capture (ch : Channel) (x : Capture) :
    (s.setChannel ch x).capture = s.capture.set ch x := rfl
@[simp] theorem State.setChannel_imu (ch : Channel) (x : Capture) : (s.setChannel ch x).imu = s.imu := rfl
@[simp] theorem State.setChannel_motion (ch : Channel) (x : Capture) : (s.setChannel ch x).motion = s.motion := rfl
@[simp] theorem State.setChannel_frame (ch : Channel) (x : Capture) : (s.setChannel ch x).frame = s.frame := rfl
@[simp] theorem State.setChannel_buffer (ch : Channel) (x : Capture) : (s.setChannel ch x).buffer = s.buffer := rfl
@[simp] theorem State.setChannel_clip (ch : Channel) (x : Capture) : (s.setChannel ch x).clip = s.clip := rfl
@[simp] theorem State.setChannel_card (ch : Channel) (x : Capture) : (s.setChannel ch x).card = s.card := rfl
@[simp] theorem State.setChannel_charge (ch : Channel) (x : Capture) : (s.setChannel ch x).charge = s.charge := rfl
@[simp] theorem State.setChannel_budget (ch : Channel) (x : Capture) : (s.setChannel ch x).budget = s.budget := rfl
@[simp] theorem State.setChannel_link (ch : Channel) (x : Capture) : (s.setChannel ch x).link = s.link := rfl
@[simp] theorem State.setChannel_pins (ch : Channel) (x : Capture) : (s.setChannel ch x).pins = s.pins := rfl
@[simp] theorem State.setChannel_freeCount (ch : Channel) (x : Capture) :
    (s.setChannel ch x).freeCount = s.freeCount := rfl
@[simp] theorem State.setChannel_pending (ch : Channel) (x : Capture) : (s.setChannel ch x).pending = s.pending := rfl

/-! ### `State.raise` -/

@[simp] theorem State.raise_capture (n : Notice) : (s.raise n).capture = s.capture := rfl
@[simp] theorem State.raise_imu (n : Notice) : (s.raise n).imu = s.imu := rfl
@[simp] theorem State.raise_motion (n : Notice) : (s.raise n).motion = s.motion := rfl
@[simp] theorem State.raise_frame (n : Notice) : (s.raise n).frame = s.frame := rfl
@[simp] theorem State.raise_buffer (n : Notice) : (s.raise n).buffer = s.buffer := rfl
@[simp] theorem State.raise_clip (n : Notice) : (s.raise n).clip = s.clip := rfl
@[simp] theorem State.raise_card (n : Notice) : (s.raise n).card = s.card := rfl
@[simp] theorem State.raise_charge (n : Notice) : (s.raise n).charge = s.charge := rfl
@[simp] theorem State.raise_budget (n : Notice) : (s.raise n).budget = s.budget := rfl
@[simp] theorem State.raise_link (n : Notice) :
    (s.raise n).link = { s.link with notices := noticeAdd s.link.notices n } := rfl
@[simp] theorem State.raise_pins (n : Notice) : (s.raise n).pins = s.pins := rfl
@[simp] theorem State.raise_freeCount (n : Notice) : (s.raise n).freeCount = s.freeCount := rfl
@[simp] theorem State.raise_pending (n : Notice) : (s.raise n).pending = s.pending := rfl
@[simp] theorem State.raise_now (n : Notice) : (s.raise n).now = s.now := rfl

/-! ### `State.setParser` -/

@[simp] theorem State.setParser_capture (x : Parser) : (s.setParser x).capture = s.capture := rfl
@[simp] theorem State.setParser_imu (x : Parser) : (s.setParser x).imu = s.imu := rfl
@[simp] theorem State.setParser_motion (x : Parser) : (s.setParser x).motion = s.motion := rfl
@[simp] theorem State.setParser_frame (x : Parser) : (s.setParser x).frame = s.frame := rfl
@[simp] theorem State.setParser_buffer (x : Parser) : (s.setParser x).buffer = s.buffer := rfl
@[simp] theorem State.setParser_clip (x : Parser) : (s.setParser x).clip = s.clip := rfl
@[simp] theorem State.setParser_card (x : Parser) : (s.setParser x).card = s.card := rfl
@[simp] theorem State.setParser_charge (x : Parser) : (s.setParser x).charge = s.charge := rfl
@[simp] theorem State.setParser_budget (x : Parser) : (s.setParser x).budget = s.budget := rfl
@[simp] theorem State.setParser_link (x : Parser) : (s.setParser x).link = { s.link with parser := x } := rfl
@[simp] theorem State.setParser_pins (x : Parser) : (s.setParser x).pins = s.pins := rfl
@[simp] theorem State.setParser_freeCount (x : Parser) : (s.setParser x).freeCount = s.freeCount := rfl
@[simp] theorem State.setParser_pending (x : Parser) : (s.setParser x).pending = s.pending := rfl
@[simp] theorem State.setParser_now (x : Parser) : (s.setParser x).now = s.now := rfl

/-! ### `State.received` -/

@[simp] theorem State.received_capture : (s.received).capture = s.capture := rfl
@[simp] theorem State.received_imu : (s.received).imu = s.imu := rfl
@[simp] theorem State.received_motion : (s.received).motion = s.motion := rfl
@[simp] theorem State.received_frame : (s.received).frame = s.frame := rfl
@[simp] theorem State.received_buffer : (s.received).buffer = s.buffer := rfl
@[simp] theorem State.received_clip : (s.received).clip = s.clip := rfl
@[simp] theorem State.received_card : (s.received).card = s.card := rfl
@[simp] theorem State.received_charge : (s.received).charge = s.charge := rfl
@[simp] theorem State.received_budget : (s.received).budget = s.budget := rfl
@[simp] theorem State.received_link : (s.received).link = { s.link with parser := .header, parked := false } := rfl
@[simp] theorem State.received_pins : (s.received).pins = s.pins := rfl
@[simp] theorem State.received_freeCount : (s.received).freeCount = s.freeCount := rfl
@[simp] theorem State.received_pending : (s.received).pending = s.pending := rfl
@[simp] theorem State.received_now : (s.received).now = s.now := rfl

/-! ### `State.join` -/

@[simp] theorem State.join_capture (tag : Byte) (k : RequestKind) (a : Answer) :
    (s.join tag k a).capture = s.capture := rfl
@[simp] theorem State.join_imu (tag : Byte) (k : RequestKind) (a : Answer) : (s.join tag k a).imu = s.imu := rfl
@[simp] theorem State.join_motion (tag : Byte) (k : RequestKind) (a : Answer) :
    (s.join tag k a).motion = s.motion := rfl
@[simp] theorem State.join_frame (tag : Byte) (k : RequestKind) (a : Answer) : (s.join tag k a).frame = s.frame := rfl
@[simp] theorem State.join_buffer (tag : Byte) (k : RequestKind) (a : Answer) :
    (s.join tag k a).buffer = s.buffer := rfl
@[simp] theorem State.join_clip (tag : Byte) (k : RequestKind) (a : Answer) : (s.join tag k a).clip = s.clip := rfl
@[simp] theorem State.join_card (tag : Byte) (k : RequestKind) (a : Answer) : (s.join tag k a).card = s.card := rfl
@[simp] theorem State.join_charge (tag : Byte) (k : RequestKind) (a : Answer) :
    (s.join tag k a).charge = s.charge := rfl
@[simp] theorem State.join_budget (tag : Byte) (k : RequestKind) (a : Answer) :
    (s.join tag k a).budget = s.budget := rfl
@[simp] theorem State.join_link (tag : Byte) (k : RequestKind) (a : Answer) :
    (s.join tag k a).link =
      { s.link with outstanding := s.link.outstanding ++ [{ tag := tag, kind := k, answer := a }] } := rfl
@[simp] theorem State.join_pins (tag : Byte) (k : RequestKind) (a : Answer) : (s.join tag k a).pins = s.pins := rfl
@[simp] theorem State.join_freeCount (tag : Byte) (k : RequestKind) (a : Answer) :
    (s.join tag k a).freeCount = s.freeCount := rfl
@[simp] theorem State.join_pending (tag : Byte) (k : RequestKind) (a : Answer) :
    (s.join tag k a).pending = s.pending := rfl
@[simp] theorem State.join_now (tag : Byte) (k : RequestKind) (a : Answer) : (s.join tag k a).now = s.now := rfl

/-! ### `State.transmit` -/

@[simp] theorem State.transmit_capture (bs : List Byte) : (s.transmit bs).capture = s.capture := rfl
@[simp] theorem State.transmit_imu (bs : List Byte) : (s.transmit bs).imu = s.imu := rfl
@[simp] theorem State.transmit_motion (bs : List Byte) : (s.transmit bs).motion = s.motion := rfl
@[simp] theorem State.transmit_frame (bs : List Byte) : (s.transmit bs).frame = s.frame := rfl
@[simp] theorem State.transmit_buffer (bs : List Byte) : (s.transmit bs).buffer = s.buffer := rfl
@[simp] theorem State.transmit_clip (bs : List Byte) : (s.transmit bs).clip = s.clip := rfl
@[simp] theorem State.transmit_card (bs : List Byte) : (s.transmit bs).card = s.card := rfl
@[simp] theorem State.transmit_charge (bs : List Byte) : (s.transmit bs).charge = s.charge := rfl
@[simp] theorem State.transmit_budget (bs : List Byte) : (s.transmit bs).budget = s.budget := rfl
@[simp] theorem State.transmit_link (bs : List Byte) :
    (s.transmit bs).link = { s.link with sending := some bs } := rfl
@[simp] theorem State.transmit_pins (bs : List Byte) : (s.transmit bs).pins = s.pins := rfl
@[simp] theorem State.transmit_freeCount (bs : List Byte) : (s.transmit bs).freeCount = s.freeCount := rfl
@[simp] theorem State.transmit_pending (bs : List Byte) : (s.transmit bs).pending = s.pending := rfl
@[simp] theorem State.transmit_now (bs : List Byte) : (s.transmit bs).now = s.now := rfl

/-! ### `State.setSlot` -/

@[simp] theorem State.setSlot_capture (i : Nat) (x : Slot) : (s.setSlot i x).capture = s.capture := rfl
@[simp] theorem State.setSlot_imu (i : Nat) (x : Slot) : (s.setSlot i x).imu = s.imu := rfl
@[simp] theorem State.setSlot_motion (i : Nat) (x : Slot) : (s.setSlot i x).motion = s.motion := rfl
@[simp] theorem State.setSlot_frame (i : Nat) (x : Slot) : (s.setSlot i x).frame = s.frame := rfl
@[simp] theorem State.setSlot_buffer (i : Nat) (x : Slot) : (s.setSlot i x).buffer = s.buffer := rfl
@[simp] theorem State.setSlot_clip (i : Nat) (x : Slot) : (s.setSlot i x).clip = s.clip.setSlot i x := rfl
@[simp] theorem State.setSlot_card (i : Nat) (x : Slot) : (s.setSlot i x).card = s.card := rfl
@[simp] theorem State.setSlot_charge (i : Nat) (x : Slot) : (s.setSlot i x).charge = s.charge := rfl
@[simp] theorem State.setSlot_budget (i : Nat) (x : Slot) : (s.setSlot i x).budget = s.budget := rfl
@[simp] theorem State.setSlot_link (i : Nat) (x : Slot) : (s.setSlot i x).link = s.link := rfl
@[simp] theorem State.setSlot_pins (i : Nat) (x : Slot) : (s.setSlot i x).pins = s.pins := rfl
@[simp] theorem State.setSlot_freeCount (i : Nat) (x : Slot) : (s.setSlot i x).freeCount = s.freeCount := rfl
@[simp] theorem State.setSlot_pending (i : Nat) (x : Slot) : (s.setSlot i x).pending = s.pending := rfl
@[simp] theorem State.setSlot_now (i : Nat) (x : Slot) : (s.setSlot i x).now = s.now := rfl

/-! ### `State.setFilling` -/

@[simp] theorem State.setFilling_capture (f : Filling) : (s.setFilling f).capture = s.capture := rfl
@[simp] theorem State.setFilling_imu (f : Filling) : (s.setFilling f).imu = s.imu := rfl
@[simp] theorem State.setFilling_motion (f : Filling) : (s.setFilling f).motion = s.motion := rfl
@[simp] theorem State.setFilling_frame (f : Filling) : (s.setFilling f).frame = s.frame := rfl
@[simp] theorem State.setFilling_buffer (f : Filling) : (s.setFilling f).buffer = s.buffer := rfl
@[simp] theorem State.setFilling_clip (f : Filling) : (s.setFilling f).clip = { s.clip with filling := some f } := rfl
@[simp] theorem State.setFilling_card (f : Filling) : (s.setFilling f).card = s.card := rfl
@[simp] theorem State.setFilling_charge (f : Filling) : (s.setFilling f).charge = s.charge := rfl
@[simp] theorem State.setFilling_budget (f : Filling) : (s.setFilling f).budget = s.budget := rfl
@[simp] theorem State.setFilling_link (f : Filling) : (s.setFilling f).link = s.link := rfl
@[simp] theorem State.setFilling_pins (f : Filling) : (s.setFilling f).pins = s.pins := rfl
@[simp] theorem State.setFilling_freeCount (f : Filling) : (s.setFilling f).freeCount = s.freeCount := rfl
@[simp] theorem State.setFilling_pending (f : Filling) : (s.setFilling f).pending = s.pending := rfl
@[simp] theorem State.setFilling_now (f : Filling) : (s.setFilling f).now = s.now := rfl

/-! ### `State.setClipState` -/

@[simp] theorem State.setClipState_capture (x : ClipState) : (s.setClipState x).capture = s.capture := rfl
@[simp] theorem State.setClipState_imu (x : ClipState) : (s.setClipState x).imu = s.imu := rfl
@[simp] theorem State.setClipState_motion (x : ClipState) : (s.setClipState x).motion = s.motion := rfl
@[simp] theorem State.setClipState_frame (x : ClipState) : (s.setClipState x).frame = s.frame := rfl
@[simp] theorem State.setClipState_buffer (x : ClipState) : (s.setClipState x).buffer = s.buffer := rfl
@[simp] theorem State.setClipState_clip (x : ClipState) : (s.setClipState x).clip = { s.clip with state := x } := rfl
@[simp] theorem State.setClipState_card (x : ClipState) : (s.setClipState x).card = s.card := rfl
@[simp] theorem State.setClipState_charge (x : ClipState) : (s.setClipState x).charge = s.charge := rfl
@[simp] theorem State.setClipState_budget (x : ClipState) : (s.setClipState x).budget = s.budget := rfl
@[simp] theorem State.setClipState_link (x : ClipState) : (s.setClipState x).link = s.link := rfl
@[simp] theorem State.setClipState_pins (x : ClipState) : (s.setClipState x).pins = s.pins := rfl
@[simp] theorem State.setClipState_freeCount (x : ClipState) : (s.setClipState x).freeCount = s.freeCount := rfl
@[simp] theorem State.setClipState_pending (x : ClipState) : (s.setClipState x).pending = s.pending := rfl
@[simp] theorem State.setClipState_now (x : ClipState) : (s.setClipState x).now = s.now := rfl

/-! ### `State.send` -/

@[simp] theorem State.send_capture (op : CardOp) : (s.send op).capture = s.capture := rfl
@[simp] theorem State.send_imu (op : CardOp) : (s.send op).imu = s.imu := rfl
@[simp] theorem State.send_motion (op : CardOp) : (s.send op).motion = s.motion := rfl
@[simp] theorem State.send_frame (op : CardOp) : (s.send op).frame = s.frame := rfl
@[simp] theorem State.send_buffer (op : CardOp) : (s.send op).buffer = s.buffer := rfl
@[simp] theorem State.send_clip (op : CardOp) : (s.send op).clip = s.clip := rfl
@[simp] theorem State.send_card (op : CardOp) :
    (s.send op).card = { s.card with bus := some { op := op, deadline := later s.now op.timeoutUs } } := rfl
@[simp] theorem State.send_charge (op : CardOp) : (s.send op).charge = s.charge := rfl
@[simp] theorem State.send_budget (op : CardOp) : (s.send op).budget = s.budget := rfl
@[simp] theorem State.send_link (op : CardOp) : (s.send op).link = s.link := rfl
@[simp] theorem State.send_pins (op : CardOp) : (s.send op).pins = s.pins := rfl
@[simp] theorem State.send_freeCount (op : CardOp) : (s.send op).freeCount = s.freeCount := rfl
@[simp] theorem State.send_pending (op : CardOp) : (s.send op).pending = s.pending := rfl
@[simp] theorem State.send_now (op : CardOp) : (s.send op).now = s.now := rfl

/-! ### `State.setCardState` -/

@[simp] theorem State.setCardState_capture (x : CardState) : (s.setCardState x).capture = s.capture := rfl
@[simp] theorem State.setCardState_imu (x : CardState) : (s.setCardState x).imu = s.imu := rfl
@[simp] theorem State.setCardState_motion (x : CardState) : (s.setCardState x).motion = s.motion := rfl
@[simp] theorem State.setCardState_frame (x : CardState) : (s.setCardState x).frame = s.frame := rfl
@[simp] theorem State.setCardState_buffer (x : CardState) : (s.setCardState x).buffer = s.buffer := rfl
@[simp] theorem State.setCardState_clip (x : CardState) : (s.setCardState x).clip = s.clip := rfl
@[simp] theorem State.setCardState_card (x : CardState) : (s.setCardState x).card = { s.card with state := x } := rfl
@[simp] theorem State.setCardState_charge (x : CardState) : (s.setCardState x).charge = s.charge := rfl
@[simp] theorem State.setCardState_budget (x : CardState) : (s.setCardState x).budget = s.budget := rfl
@[simp] theorem State.setCardState_link (x : CardState) : (s.setCardState x).link = s.link := rfl
@[simp] theorem State.setCardState_pins (x : CardState) : (s.setCardState x).pins = s.pins := rfl
@[simp] theorem State.setCardState_freeCount (x : CardState) : (s.setCardState x).freeCount = s.freeCount := rfl
@[simp] theorem State.setCardState_pending (x : CardState) : (s.setCardState x).pending = s.pending := rfl
@[simp] theorem State.setCardState_now (x : CardState) : (s.setCardState x).now = s.now := rfl

/-! ### `State.clearBus` -/

@[simp] theorem State.clearBus_capture : (s.clearBus).capture = s.capture := rfl
@[simp] theorem State.clearBus_imu : (s.clearBus).imu = s.imu := rfl
@[simp] theorem State.clearBus_motion : (s.clearBus).motion = s.motion := rfl
@[simp] theorem State.clearBus_frame : (s.clearBus).frame = s.frame := rfl
@[simp] theorem State.clearBus_buffer : (s.clearBus).buffer = s.buffer := rfl
@[simp] theorem State.clearBus_clip : (s.clearBus).clip = s.clip := rfl
@[simp] theorem State.clearBus_card : (s.clearBus).card = { s.card with bus := none } := rfl
@[simp] theorem State.clearBus_charge : (s.clearBus).charge = s.charge := rfl
@[simp] theorem State.clearBus_budget : (s.clearBus).budget = s.budget := rfl
@[simp] theorem State.clearBus_link : (s.clearBus).link = s.link := rfl
@[simp] theorem State.clearBus_pins : (s.clearBus).pins = s.pins := rfl
@[simp] theorem State.clearBus_freeCount : (s.clearBus).freeCount = s.freeCount := rfl
@[simp] theorem State.clearBus_pending : (s.clearBus).pending = s.pending := rfl
@[simp] theorem State.clearBus_now : (s.clearBus).now = s.now := rfl

/-! ### `State.setGrant` -/

@[simp] theorem State.setGrant_capture (g : Grant) : (s.setGrant g).capture = s.capture := rfl
@[simp] theorem State.setGrant_imu (g : Grant) : (s.setGrant g).imu = s.imu := rfl
@[simp] theorem State.setGrant_motion (g : Grant) : (s.setGrant g).motion = s.motion := rfl
@[simp] theorem State.setGrant_frame (g : Grant) : (s.setGrant g).frame = s.frame := rfl
@[simp] theorem State.setGrant_buffer (g : Grant) : (s.setGrant g).buffer = s.buffer := rfl
@[simp] theorem State.setGrant_clip (g : Grant) : (s.setGrant g).clip = s.clip := rfl
@[simp] theorem State.setGrant_card (g : Grant) : (s.setGrant g).card = s.card := rfl
@[simp] theorem State.setGrant_charge (g : Grant) : (s.setGrant g).charge = s.charge := rfl
@[simp] theorem State.setGrant_budget (g : Grant) : (s.setGrant g).budget = { s.budget with grant := g } := rfl
@[simp] theorem State.setGrant_link (g : Grant) : (s.setGrant g).link = s.link := rfl
@[simp] theorem State.setGrant_pins (g : Grant) : (s.setGrant g).pins = s.pins := rfl
@[simp] theorem State.setGrant_freeCount (g : Grant) : (s.setGrant g).freeCount = s.freeCount := rfl
@[simp] theorem State.setGrant_pending (g : Grant) : (s.setGrant g).pending = s.pending := rfl
@[simp] theorem State.setGrant_now (g : Grant) : (s.setGrant g).now = s.now := rfl

/-! ### `State.setRun` -/

@[simp] theorem State.setRun_capture (r : Run) : (s.setRun r).capture = s.capture := rfl
@[simp] theorem State.setRun_imu (r : Run) : (s.setRun r).imu = s.imu := rfl
@[simp] theorem State.setRun_motion (r : Run) : (s.setRun r).motion = s.motion := rfl
@[simp] theorem State.setRun_frame (r : Run) : (s.setRun r).frame = s.frame := rfl
@[simp] theorem State.setRun_buffer (r : Run) : (s.setRun r).buffer = s.buffer := rfl
@[simp] theorem State.setRun_clip (r : Run) : (s.setRun r).clip = s.clip := rfl
@[simp] theorem State.setRun_card (r : Run) : (s.setRun r).card = { s.card with run := some r } := rfl
@[simp] theorem State.setRun_charge (r : Run) : (s.setRun r).charge = s.charge := rfl
@[simp] theorem State.setRun_budget (r : Run) : (s.setRun r).budget = s.budget := rfl
@[simp] theorem State.setRun_link (r : Run) : (s.setRun r).link = s.link := rfl
@[simp] theorem State.setRun_pins (r : Run) : (s.setRun r).pins = s.pins := rfl
@[simp] theorem State.setRun_freeCount (r : Run) : (s.setRun r).freeCount = s.freeCount := rfl
@[simp] theorem State.setRun_pending (r : Run) : (s.setRun r).pending = s.pending := rfl
@[simp] theorem State.setRun_now (r : Run) : (s.setRun r).now = s.now := rfl

/-! ### `State.updateCeiling` -/

@[simp] theorem State.updateCeiling_capture : (s.updateCeiling).capture = s.capture := rfl
@[simp] theorem State.updateCeiling_imu : (s.updateCeiling).imu = s.imu := rfl
@[simp] theorem State.updateCeiling_motion : (s.updateCeiling).motion = s.motion := rfl
@[simp] theorem State.updateCeiling_frame : (s.updateCeiling).frame = s.frame := rfl
@[simp] theorem State.updateCeiling_buffer : (s.updateCeiling).buffer = s.buffer := rfl
@[simp] theorem State.updateCeiling_clip : (s.updateCeiling).clip = s.clip := rfl
@[simp] theorem State.updateCeiling_card : (s.updateCeiling).card = s.card := rfl
@[simp] theorem State.updateCeiling_charge :
    (s.updateCeiling).charge = { s.charge with ceiling := s.charge.stageCeiling } := rfl
@[simp] theorem State.updateCeiling_budget : (s.updateCeiling).budget = s.budget := rfl
@[simp] theorem State.updateCeiling_link : (s.updateCeiling).link = s.link := rfl
@[simp] theorem State.updateCeiling_pins : (s.updateCeiling).pins = s.pins := rfl
@[simp] theorem State.updateCeiling_freeCount : (s.updateCeiling).freeCount = s.freeCount := rfl
@[simp] theorem State.updateCeiling_pending : (s.updateCeiling).pending = s.pending := rfl
@[simp] theorem State.updateCeiling_now : (s.updateCeiling).now = s.now := rfl

/-! ### `State.advanceClock` -/

@[simp] theorem State.advanceClock_capture :
    (s.advanceClock).capture = { s.capture with clock := s.capture.clock + 1 } := rfl
@[simp] theorem State.advanceClock_imu : (s.advanceClock).imu = s.imu := rfl
@[simp] theorem State.advanceClock_motion : (s.advanceClock).motion = s.motion := rfl
@[simp] theorem State.advanceClock_frame : (s.advanceClock).frame = s.frame := rfl
@[simp] theorem State.advanceClock_buffer : (s.advanceClock).buffer = s.buffer := rfl
@[simp] theorem State.advanceClock_clip : (s.advanceClock).clip = s.clip := rfl
@[simp] theorem State.advanceClock_card : (s.advanceClock).card = s.card := rfl
@[simp] theorem State.advanceClock_charge : (s.advanceClock).charge = s.charge := rfl
@[simp] theorem State.advanceClock_budget : (s.advanceClock).budget = s.budget := rfl
@[simp] theorem State.advanceClock_link : (s.advanceClock).link = s.link := rfl
@[simp] theorem State.advanceClock_pins : (s.advanceClock).pins = s.pins := rfl
@[simp] theorem State.advanceClock_freeCount : (s.advanceClock).freeCount = s.freeCount := rfl
@[simp] theorem State.advanceClock_pending : (s.advanceClock).pending = s.pending := rfl

/-! ### `State.setCounts` -/

@[simp] theorem State.setCounts_capture (r e : Nat) : (s.setCounts r e).capture = s.capture := rfl
@[simp] theorem State.setCounts_imu (r e : Nat) : (s.setCounts r e).imu = s.imu := rfl
@[simp] theorem State.setCounts_motion (r e : Nat) : (s.setCounts r e).motion = s.motion := rfl
@[simp] theorem State.setCounts_frame (r e : Nat) : (s.setCounts r e).frame = s.frame := rfl
@[simp] theorem State.setCounts_buffer (r e : Nat) : (s.setCounts r e).buffer = s.buffer := rfl
@[simp] theorem State.setCounts_clip (r e : Nat) : (s.setCounts r e).clip = s.clip := rfl
@[simp] theorem State.setCounts_card (r e : Nat) : (s.setCounts r e).card = s.card := rfl
@[simp] theorem State.setCounts_charge (r e : Nat) :
    (s.setCounts r e).charge = { s.charge with runCount := r, elapsed := e } := rfl
@[simp] theorem State.setCounts_budget (r e : Nat) : (s.setCounts r e).budget = s.budget := rfl
@[simp] theorem State.setCounts_link (r e : Nat) : (s.setCounts r e).link = s.link := rfl
@[simp] theorem State.setCounts_pins (r e : Nat) : (s.setCounts r e).pins = s.pins := rfl
@[simp] theorem State.setCounts_freeCount (r e : Nat) : (s.setCounts r e).freeCount = s.freeCount := rfl
@[simp] theorem State.setCounts_pending (r e : Nat) : (s.setCounts r e).pending = s.pending := rfl
@[simp] theorem State.setCounts_now (r e : Nat) : (s.setCounts r e).now = s.now := rfl

/-! ### `State.abandonCard` -/

@[simp] theorem State.abandonCard_capture : (s.abandonCard).capture = s.capture := rfl
@[simp] theorem State.abandonCard_imu : (s.abandonCard).imu = s.imu := rfl
@[simp] theorem State.abandonCard_motion : (s.abandonCard).motion = s.motion := rfl
@[simp] theorem State.abandonCard_frame : (s.abandonCard).frame = s.frame := rfl
@[simp] theorem State.abandonCard_buffer : (s.abandonCard).buffer = s.buffer := rfl
@[simp] theorem State.abandonCard_clip : (s.abandonCard).clip = s.clip := rfl
@[simp] theorem State.abandonCard_card : (s.abandonCard).card = s.card.abandon := rfl
@[simp] theorem State.abandonCard_charge : (s.abandonCard).charge = s.charge := rfl
@[simp] theorem State.abandonCard_budget : (s.abandonCard).budget = { s.budget with grant := .none } := rfl
@[simp] theorem State.abandonCard_link : (s.abandonCard).link = s.link := rfl
@[simp] theorem State.abandonCard_pins : (s.abandonCard).pins = s.pins := rfl
@[simp] theorem State.abandonCard_freeCount : (s.abandonCard).freeCount = s.freeCount := rfl
@[simp] theorem State.abandonCard_pending : (s.abandonCard).pending = s.pending := rfl
@[simp] theorem State.abandonCard_now : (s.abandonCard).now = s.now := rfl

/-! ### `State.syncBuffer` -/

@[simp] theorem State.syncBuffer_capture : (s.syncBuffer).capture = s.capture := rfl
@[simp] theorem State.syncBuffer_imu : (s.syncBuffer).imu = s.imu := rfl
@[simp] theorem State.syncBuffer_motion : (s.syncBuffer).motion = s.motion := rfl
@[simp] theorem State.syncBuffer_frame : (s.syncBuffer).frame = s.frame := rfl
@[simp] theorem State.syncBuffer_buffer :
    (s.syncBuffer).buffer = s.buffer.syncHold.syncLatency s.now s.clip.cfg.latencyMs := rfl
@[simp] theorem State.syncBuffer_clip : (s.syncBuffer).clip = s.clip := rfl
@[simp] theorem State.syncBuffer_card : (s.syncBuffer).card = s.card := rfl
@[simp] theorem State.syncBuffer_charge : (s.syncBuffer).charge = s.charge := rfl
@[simp] theorem State.syncBuffer_budget : (s.syncBuffer).budget = s.budget := rfl
@[simp] theorem State.syncBuffer_link : (s.syncBuffer).link = s.link := rfl
@[simp] theorem State.syncBuffer_pins : (s.syncBuffer).pins = s.pins := rfl
@[simp] theorem State.syncBuffer_freeCount : (s.syncBuffer).freeCount = s.freeCount := rfl
@[simp] theorem State.syncBuffer_pending : (s.syncBuffer).pending = s.pending := rfl
@[simp] theorem State.syncBuffer_now : (s.syncBuffer).now = s.now := rfl

/-! ### `State.logError` -/

@[simp] theorem State.logError_capture (k : LogKind) (a : Nat) (i : Option Nat) (n : Nat) :
    (s.logError k a i n).capture = s.capture := rfl
@[simp] theorem State.logError_imu (k : LogKind) (a : Nat) (i : Option Nat) (n : Nat) :
    (s.logError k a i n).imu = s.imu := rfl
@[simp] theorem State.logError_motion (k : LogKind) (a : Nat) (i : Option Nat) (n : Nat) :
    (s.logError k a i n).motion = s.motion := rfl
@[simp] theorem State.logError_frame (k : LogKind) (a : Nat) (i : Option Nat) (n : Nat) :
    (s.logError k a i n).frame = s.frame := rfl
@[simp] theorem State.logError_buffer (k : LogKind) (a : Nat) (i : Option Nat) (n : Nat) :
    (s.logError k a i n).buffer = s.buffer := rfl
@[simp] theorem State.logError_clip (k : LogKind) (a : Nat) (i : Option Nat) (n : Nat) :
    (s.logError k a i n).clip = s.clip := rfl
@[simp] theorem State.logError_card (k : LogKind) (a : Nat) (i : Option Nat) (n : Nat) :
    (s.logError k a i n).card = s.card.logAdd k a i n s.now := rfl
@[simp] theorem State.logError_charge (k : LogKind) (a : Nat) (i : Option Nat) (n : Nat) :
    (s.logError k a i n).charge = s.charge := rfl
@[simp] theorem State.logError_budget (k : LogKind) (a : Nat) (i : Option Nat) (n : Nat) :
    (s.logError k a i n).budget = s.budget := rfl
@[simp] theorem State.logError_link (k : LogKind) (a : Nat) (i : Option Nat) (n : Nat) :
    (s.logError k a i n).link =
      { s.link with notices := noticeAdd s.link.notices (.cardError k (s.card.logSeq + 1)) } := rfl
@[simp] theorem State.logError_pins (k : LogKind) (a : Nat) (i : Option Nat) (n : Nat) :
    (s.logError k a i n).pins = s.pins := rfl
@[simp] theorem State.logError_freeCount (k : LogKind) (a : Nat) (i : Option Nat) (n : Nat) :
    (s.logError k a i n).freeCount = s.freeCount := rfl
@[simp] theorem State.logError_pending (k : LogKind) (a : Nat) (i : Option Nat) (n : Nat) :
    (s.logError k a i n).pending = s.pending := rfl
@[simp] theorem State.logError_now (k : LogKind) (a : Nat) (i : Option Nat) (n : Nat) : (s.logError k a i n).now = s.now := rfl

end Sys2Proof.Machine
end

