-- ==== Sys2Proof/Laws/Clip.lean ====
section
/-! SUPPORT. What the clip recorder's standing work can touch, and what the end of an event leaves. -/
namespace Sys2Proof.Machine

/-- Everything that the clip recorder's standing work leaves as it was: all but the chunk buffer, the clip record and
its slots, the motion chunk accumulator and the notice set. -/
def State.beyondClip (s : State) : State :=
  { s with
    frame := s.frame.closeAcc, buffer := .reset, link := { s.link with notices := [] }
    clip := { ClipRecorder.reset with cfg := s.clip.cfg, window := s.clip.window, protectRefused := s.clip.protectRefused } }

variable (s : State)

@[simp] theorem beyondClip_raise (n : Notice) : (s.raise n).beyondClip = s.beyondClip := rfl
@[simp] theorem beyondClip_setSlot (i : Nat) (x : Slot) : (s.setSlot i x).beyondClip = s.beyondClip := rfl
@[simp] theorem beyondClip_setFilling (f : Filling) : (s.setFilling f).beyondClip = s.beyondClip := rfl
@[simp] theorem beyondClip_setClipState (x : ClipState) : (s.setClipState x).beyondClip = s.beyondClip := rfl
@[simp] theorem beyondClip_buffer (b : ChunkBuffer) : ({ s with buffer := b } : State).beyondClip = s.beyondClip := rfl
@[simp] theorem beyondClip_markUnusable (i : Nat) : (s.markUnusable i).beyondClip = s.beyondClip := rfl
@[simp] theorem beyondClip_takeSlot (i : Nat) : (s.takeSlot i).beyondClip = s.beyondClip := rfl
@[simp] theorem beyondClip_endClip (r : ClipEnd) : (s.endClip r).beyondClip = s.beyondClip := rfl
@[simp] theorem beyondClip_abandonClip (r : ClipEnd) : (s.abandonClip r).beyondClip = s.beyondClip := rfl

@[simp] theorem beyondClip_seekSlot (mode : ClipMode) (ex : Option Nat) (n : Nat) :
    (s.seekSlot mode ex n).1.beyondClip = s.beyondClip := by
  induction n generalizing s with
  | zero => rfl
  | succ n ih =>
    unfold State.seekSlot
    split
    · rfl
    · split
      · rw [ih]; simp
      · rfl

@[simp] theorem beyondClip_closeSegment (r : EndReason) : (s.closeSegment r).beyondClip = s.beyondClip := by
  unfold State.closeSegment; split <;> rfl

@[simp] theorem beyondClip_padMark : s.padMark.beyondClip = s.beyondClip := by
  unfold State.padMark; split <;> (try split) <;> rfl

@[simp] theorem beyondClip_markFlush (m : Option Word32) : (s.markFlush m).beyondClip = s.beyondClip := by
  unfold State.markFlush; split <;> rfl
@[simp] theorem beyondClip_requestFlush (m : Option Word32) : (s.requestFlush m).beyondClip = s.beyondClip := by
  unfold State.requestFlush; split <;> simp

@[simp] theorem beyondClip_beginRollover (f : Filling) (c : CloseCause) :
    (s.beginRollover f c).beyondClip = s.beyondClip := by
  simp [State.beginRollover]

@[simp] theorem beyondClip_finishRollover (f : Filling) (c : CloseCause) :
    (s.finishRollover f c).beyondClip = s.beyondClip := by
  have h := beyondClip_seekSlot s s.clip.mode (some f.slot) 65
  unfold State.finishRollover
  split <;> rename_i s1 _ heq <;> simp_all

@[simp] theorem beyondClip_placeChunk (f : Filling) (c : Chunk) : (s.placeChunk f c).beyondClip = s.beyondClip := by
  unfold State.placeChunk
  simp only [beyondClip_setFilling, beyondClip_buffer]
  split <;> rfl

@[simp] theorem beyondClip_endStreamAt (f : Filling) (pos : Nat) :
    (s.endStreamAt f pos).beyondClip = s.beyondClip := by
  unfold State.endStreamAt State.noneStanding
  simp only
  split <;> rfl

@[simp] theorem beyondClip_emergencyDiscard (f : Filling) (q : Word32) :
    (s.emergencyDiscard f q).beyondClip = s.beyondClip := by
  simp [State.emergencyDiscard]

@[simp] theorem beyondClip_unusableSegment (f : Filling) (c : Chunk) :
    (s.unusableSegment f c).beyondClip = s.beyondClip := by
  unfold State.unusableSegment
  simp only
  split <;> rename_i s2 _ heq
  · have h := congrArg (fun r => r.1.beyondClip) heq
    simp only [beyondClip_seekSlot, beyondClip_raise, beyondClip_setSlot] at h
    simp [← h]
  · have h := congrArg (fun r => r.1.beyondClip) heq
    simp only [beyondClip_seekSlot, beyondClip_raise, beyondClip_setSlot] at h
    simp [← h]

@[simp] theorem beyondClip_awaitKeyframe (f : Filling) : (s.awaitKeyframe f).beyondClip = s.beyondClip := by
  unfold State.awaitKeyframe; split <;> rfl

@[simp] theorem beyondClip_judgePlacement (f : Filling) (c : Chunk) :
    (s.judgePlacement f c).beyondClip = s.beyondClip := by
  unfold State.judgePlacement
  simp only
  split
  · split <;> simp
  · split
    · simp
    · split
      · simp
      · split <;> simp

/-- Placements and rollovers touch nothing beyond the clip column. -/
@[simp] theorem beyondClip_advanceClip (n : Nat) : (s.advanceClip n).beyondClip = s.beyondClip := by
  induction n generalizing s with
  | zero => rfl
  | succ n ih =>
    unfold State.advanceClip
    split
    · rw [ih]; simp
    · split
      · rw [ih]; simp
      · rfl

@[simp] theorem beyondClip_finishClose : s.finishClose.beyondClip = s.beyondClip := by
  unfold State.finishClose
  split
  · split <;> simp
  · rfl

/-- The clip recorder's standing work touches nothing beyond the clip column. -/
@[simp] theorem beyondClip_settleClip : s.settleClip.beyondClip = s.beyondClip := by simp [State.settleClip]

@[simp] theorem beyondClip_syncBuffer : s.syncBuffer.beyondClip = s.beyondClip := rfl

/-- Bringing the grant request up to date changes the grant alone, and never takes a held one. -/
theorem syncGrant_eq : ∃ g, s.syncGrant = s.setGrant g ∧ (s.budget.grant = .held ↔ g = .held) := by
  unfold State.syncGrant
  split <;> rename_i h
  · split
    · exact ⟨.pending, rfl, by simp [h]⟩
    · exact ⟨.none, by rw [← h]; rfl, by simp [h]⟩
  · split
    · exact ⟨.pending, by rw [← h]; rfl, by simp [h]⟩
    · exact ⟨.none, rfl, by simp [h]⟩
  · exact ⟨.held, by rw [← h]; rfl, by simp [h]⟩

/-- What the standing work after an event can change: the clip column, and the grant between NONE and PENDING. -/
theorem settle_spec : ∃ g, s.settle.beyondClip = (s.beyondClip.setGrant g) ∧ (s.budget.grant = .held ↔ g = .held) := by
  obtain ⟨g, h, hg⟩ := syncGrant_eq s.settleClip.syncBuffer
  refine ⟨g, ?_, ?_⟩
  · show s.settleClip.syncBuffer.syncGrant.beyondClip = _
    rw [h]
    have : s.settleClip.syncBuffer.beyondClip = s.beyondClip := by simp
    rw [← this]
    rfl
  · have h' : s.settleClip.syncBuffer.beyondClip.budget = s.beyondClip.budget := by simp
    have : s.settleClip.syncBuffer.budget = s.budget := h'
    rwa [this] at hg

/-- HOLD follows the buffer at the end of every event that can move it. -/
@[simp] theorem settle_hold : s.settle.buffer.hold = s.settle.buffer.short := by
  obtain ⟨g, h, -⟩ := syncGrant_eq s.settleClip.syncBuffer
  show s.settleClip.syncBuffer.syncGrant.buffer.hold = s.settleClip.syncBuffer.syncGrant.buffer.short
  rw [h]
  simp

end Sys2Proof.Machine
end

