-- ==== Sys2Proof/Laws/Settle.lean ====
section
/-! SUPPORT. The clip recorder's standing work one piece at a time: the bound on its work is never reached, so that a
placement, a rollover or a slot marked UNUSABLE can be taken as a step of its own. -/
namespace Sys2Proof.Machine

/-! ### What is left to do -/

/-- Whether a slot could be taken in some search (R91). -/
def Slot.takeable (x : Slot) : Bool := decide (x.state = .free) || decide (x.state = .closed)

/-- The number of slots that could be taken. -/
def ClipRecorder.takeables (c : ClipRecorder) : Nat := c.slots.countP Slot.takeable

/-- The number of descriptors with no standing placement. -/
def ChunkBuffer.unplaced (b : ChunkBuffer) : Nat := b.queue.countP (fun c => c.place.isNone)

/-- Whether some descriptor's placement stands. -/
def ChunkBuffer.standing (b : ChunkBuffer) : Bool := b.queue.any (fun c => c.place.isSome)

/-- What a segment has still to do before it needs another chunk or slot: close, or begin a rollover. -/
def Filling.phase (f : Filling) (standing : Bool) : Nat :=
  match f.pending with
  | some _ => if standing then 0 else 1
  | none => if f.anyPlaced then (if standing then 1 else 2) else 0

/-- A bound on the standing work that is left; every piece of it lowers the bound. -/
def State.workLeft (s : State) : Nat :=
  match s.clip.filling with
  | none => 0
  | some f => 2 * s.buffer.unplaced + s.clip.takeables + f.phase s.buffer.standing + 1

theorem Filling.phase_le (f : Filling) (b : Bool) : f.phase b ≤ 2 := by
  unfold Filling.phase; repeat' split <;> try omega

/-! ### Slots -/

/-- One slot replaced: the number of slots that could be taken follows that slot. -/
theorem ClipRecorder.setSlot_takeables (c : ClipRecorder) {i : Nat} (h : i < 64) (x : Slot) :
    (c.setSlot i x).takeables =
      (c.takeables - if (c.slot i).takeable then 1 else 0) + if x.takeable then 1 else 0 := by
  have h1 : c.slots.setIfInBounds i x = c.slots.set i x h := by
    apply Vector.ext; intro j hj; simp [Vector.getElem_setIfInBounds, Vector.getElem_set]
  have h2 : c.slot i = c.slots[i] := by simp [ClipRecorder.slot, h]
  unfold ClipRecorder.takeables ClipRecorder.setSlot
  simp only [h1, h2]
  exact Vector.countP_set h

theorem ClipRecorder.setSlot_outside (c : ClipRecorder) {i : Nat} (h : 64 ≤ i) (x : Slot) : c.setSlot i x = c := by
  simp [ClipRecorder.setSlot, Vector.setIfInBounds_eq_of_size_le h]

/-- A slot that could be taken is counted. -/
theorem ClipRecorder.takeables_pos (c : ClipRecorder) {i : Nat} (h : i < 64) (ht : (c.slot i).takeable = true) :
    1 ≤ c.takeables := by
  have h2 : c.slot i = c.slots[i] := by simp [ClipRecorder.slot, h]
  unfold ClipRecorder.takeables
  rw [Nat.one_le_iff_ne_zero, ne_eq, Vector.countP_eq_zero]
  intro hc
  exact absurd ht (hc c.slots[i] (by simp) |> fun k => by rw [h2]; exact k)

theorem ClipRecorder.setSlot_takeables_le (c : ClipRecorder) (i : Nat) (x : Slot) :
    (c.setSlot i x).takeables ≤ c.takeables + if x.takeable then 1 else 0 := by
  by_cases h : i < 64
  · rw [c.setSlot_takeables h]; omega
  · rw [c.setSlot_outside (by omega)]; omega

/-- A slot that could be taken, replaced by one that could not. -/
theorem ClipRecorder.setSlot_takeables_lt (c : ClipRecorder) {i : Nat} (h : i < 64)
    (ht : (c.slot i).takeable = true) {x : Slot} (hx : x.takeable = false) :
    (c.setSlot i x).takeables + 1 = c.takeables := by
  have := c.takeables_pos h ht
  rw [c.setSlot_takeables h]; simp [ht, hx]; omega

theorem ClipRecorder.takeables_le (c : ClipRecorder) : c.takeables ≤ 64 := Vector.countP_le_size

theorem ClipRecorder.setSlot_slot (c : ClipRecorder) (i j : Nat) (x : Slot) :
    (c.setSlot i x).slot j = if i = j ∧ j < 64 then x else c.slot j := by
  unfold ClipRecorder.setSlot ClipRecorder.slot
  by_cases h : j < 64
  · simp [h, Vector.getElem_setIfInBounds]
  · simp [h]

/-! ### The search for a slot (R91) -/

theorem olderSlot_mem (l : List (Nat × Slot)) (a : Option (Nat × Slot)) {x : Nat × Slot}
    (h : l.foldl olderSlot a = some x) : x ∈ l ∨ a = some x := by
  induction l generalizing a with
  | nil => exact .inr h
  | cons y l ih =>
    rcases ih _ h with hm | hm
    · exact .inl (List.mem_cons_of_mem _ hm)
    · unfold olderSlot at hm
      split at hm
      · cases hm; simp
      · split at hm
        · cases hm; simp
        · exact .inr (by simpa using hm)

theorem ClipRecorder.mem_numbered (c : ClipRecorder) {x : Nat × Slot} (h : x ∈ c.numbered) :
    x.1 < 64 ∧ c.slot x.1 = x.2 := by
  unfold ClipRecorder.numbered at h
  obtain ⟨n, hn, rfl⟩ := List.mem_iff_getElem.1 h
  simp at hn
  simp [ClipRecorder.slot, hn]

/-- The slot that a search tries could be taken, and is not the one left out. -/
theorem ClipRecorder.candidate_spec (c : ClipRecorder) {mode : ClipMode} {ex : Option Nat} {i : Nat}
    (h : c.candidate mode ex = some i) : i < 64 ∧ some i ≠ ex ∧ (c.slot i).takeable = true := by
  unfold ClipRecorder.candidate at h
  simp only at h
  split at h
  · rename_i x hx
    cases h
    have hm := List.mem_of_find?_eq_some hx
    rw [List.mem_filter] at hm
    obtain ⟨h1, h2⟩ := c.mem_numbered hm.1
    have h3 := List.find?_some hx
    exact ⟨h1, by simpa using hm.2, by rw [h2]; simp_all [Slot.takeable]⟩
  · split at h
    · cases h
    · rw [Option.map_eq_some_iff] at h
      obtain ⟨x, hx, rfl⟩ := h
      rcases olderSlot_mem _ _ hx with hm | hm
      · rw [List.mem_filter, List.mem_filter] at hm
        obtain ⟨h1, h2⟩ := c.mem_numbered hm.1.1
        exact ⟨h1, by simpa using hm.1.2, by rw [h2]; simp_all [Slot.takeable]⟩
      · cases hm

theorem ClipRecorder.numbered_eq (c : ClipRecorder) : c.numbered = (List.range 64).map (fun j => (j, c.slot j)) := by
  unfold ClipRecorder.numbered
  apply List.ext_getElem
  · simp
  · intro n h1 h2
    simp at h2
    simp [ClipRecorder.slot, h2]

/-- The first slot in order with a property is found. -/
theorem find?_numbered {c : ClipRecorder} {ex : Option Nat} {p : Slot → Bool} {i : Nat} (hi : i < 64) (hx : some i ≠ ex)
    (hp : p (c.slot i) = true) (hb : ∀ j, j < i → some j ≠ ex → p (c.slot j) = false) :
    (c.numbered.filter (fun x => decide (some x.1 ≠ ex))).find? (fun x => p x.2) = some (i, c.slot i) := by
  rw [c.numbered_eq, List.find?_filter]
  have h1 : List.range 64 = List.range i ++ i :: (List.range' (i + 1) (63 - i)) := by
    have h2 : (64 : Nat) = i + ((63 - i) + 1) := by omega
    rw [List.range_eq_range', List.range_eq_range', ← List.range'_succ]
    conv_lhs => rw [h2, ← List.range'_append_1]
    simp
  rw [h1, List.map_append, List.find?_append, List.map_cons, List.find?_cons]
  have h3 : ((List.range i).map (fun j => (j, c.slot j))).find? (fun a => decide (decide (some a.1 ≠ ex) = true ∧ p a.2 = true)) = none := by
    rw [List.find?_eq_none]
    intro x hm
    obtain ⟨j, hj, rfl⟩ := List.mem_map.1 hm
    rw [List.mem_range] at hj
    by_cases h : some j = ex
    · simp [h]
    · simp [hb j hj h]
  rw [h3]
  simp [hx, hp]

/-- The slot with the lowest close sequence wins wherever it stands. -/
theorem foldl_olderSlot {l : List (Nat × Slot)} {x : Nat × Slot} (hx : x ∈ l)
    (hl : ∀ y ∈ l, y ≠ x → optWord x.2.closeSeq < optWord y.2.closeSeq) (a : Option (Nat × Slot))
    (ha : ∀ y, a = some y → y ≠ x → optWord x.2.closeSeq < optWord y.2.closeSeq) :
    l.foldl olderSlot a = some x := by
  have stays : ∀ l : List (Nat × Slot), (∀ y ∈ l, y ≠ x → optWord x.2.closeSeq < optWord y.2.closeSeq) →
      l.foldl olderSlot (some x) = some x := by
    intro l
    induction l with
    | nil => intro _; rfl
    | cons y l ih =>
      intro h
      have : olderSlot (some x) y = some x := by
        unfold olderSlot
        by_cases hy : y = x
        · simp [hy]
        · have := h y (by simp) hy
          simp; omega
      rw [List.foldl_cons, this]
      exact ih (fun z hz => h z (by simp [hz]))
  induction l generalizing a with
  | nil => simp at hx
  | cons y l ih =>
    rw [List.foldl_cons]
    by_cases hy : y = x
    · subst hy
      have : olderSlot a y = some y := by
        unfold olderSlot
        split
        · rfl
        · rename_i z
          by_cases hz : z = y
          · simp [hz]
          · have := ha z rfl hz
            simp [this]
      rw [this]
      exact stays l (fun z hz => hl z (by simp [hz]))
    · refine ih ?_ (fun z hz => hl z (by simp [hz])) _ ?_
      · simpa [Ne.symm hy] using hx
      · intro z hz hne
        unfold olderSlot at hz
        split at hz
        · cases hz; exact hl _ (by simp) hne
        · split at hz
          · cases hz; exact hl _ (by simp) hne
          · rename_i w _
            cases hz; exact ha _ rfl hne

/-- The slot that R91 names is the one the search tries. -/
theorem ClipRecorder.Chosen.candidate {c : ClipRecorder} {mode : ClipMode} {ex : Option Nat} {i : Nat}
    (h : c.Chosen mode ex i) : c.candidate mode ex = some i := by
  obtain ⟨hi, hx, ⟨hf, hb⟩ | ⟨rfl, hn, hc, hp, hl⟩⟩ := h
  · unfold ClipRecorder.candidate
    have := find?_numbered (c := c) (p := fun x => decide (x.state = .free)) hi hx (by simp [hf])
      (fun j hj hx => by simp [hb j hj hx])
    simp only [this]
  · unfold ClipRecorder.candidate
    have h0 : (c.numbered.filter (fun x => decide (some x.1 ≠ ex))).find?
        (fun x => decide (x.2.state = .free)) = none := by
      rw [List.find?_eq_none]
      intro x hm
      rw [List.mem_filter] at hm
      obtain ⟨-, h2⟩ := c.mem_numbered hm.1
      have := hn x.1 (by simpa using hm.2)
      rw [h2] at this
      simp [this]
    simp only [h0]
    rw [Option.map_eq_some_iff]
    refine ⟨(i, c.slot i), foldl_olderSlot ?_ ?_ none (by simp), rfl⟩
    · rw [List.mem_filter, List.mem_filter, c.numbered_eq]
      exact ⟨⟨List.mem_map.2 ⟨i, by simpa using hi, rfl⟩, by simpa using hx⟩, by simp [hc, hp]⟩
    · intro y hy hne
      rw [List.mem_filter, List.mem_filter] at hy
      obtain ⟨-, h2⟩ := c.mem_numbered hy.1.1
      have h3 := hl y.1 (by simpa using hy.1.2) (by
        intro he; exact hne (Prod.ext he (by rw [← h2, he])))
      rw [h2] at h3
      simp only [Bool.and_eq_true, decide_eq_true_eq, Option.isNone_iff_eq_none] at hy
      exact h3 hy.2.1 hy.2.2

/-- Where R91 names no slot the search tries none. -/
theorem ClipRecorder.NoSlot.candidate {c : ClipRecorder} {mode : ClipMode} {ex : Option Nat}
    (h : c.NoSlot mode ex) : c.candidate mode ex = none := by
  cases hc : c.candidate mode ex with
  | none => rfl
  | some i =>
    obtain ⟨-, h2, h3⟩ := c.candidate_spec hc
    obtain ⟨h4, h5⟩ := h i h2
    unfold ClipRecorder.candidate at hc
    simp only at hc
    split at hc
    · rename_i x hx
      cases hc
      have hm := List.mem_of_find?_eq_some hx
      rw [List.mem_filter] at hm
      obtain ⟨-, h6⟩ := c.mem_numbered hm.1
      have := List.find?_some hx
      rw [h6] at h4
      simp_all
    · split at hc
      · cases hc
      · rw [Option.map_eq_some_iff] at hc
        obtain ⟨x, hx, rfl⟩ := hc
        rcases olderSlot_mem _ _ hx with hm | hm
        · rw [List.mem_filter, List.mem_filter] at hm
          obtain ⟨-, h6⟩ := c.mem_numbered hm.1.1
          rw [h6] at h5
          simp only [Bool.and_eq_true, decide_eq_true_eq, Option.isNone_iff_eq_none] at hm
          rcases h5 with h5 | h5 | h5
          · cases h5
          · exact absurd hm.2.1 h5
          · exact absurd hm.2.2 h5
        · cases hm

theorem State.markUnusable_takeables (s : State) {i : Nat} (h : i < 64) (ht : (s.clip.slot i).takeable = true) :
    (s.markUnusable i).clip.takeables + 1 = s.clip.takeables :=
  s.clip.setSlot_takeables_lt h ht (by simp [Slot.takeable])

/-- The number of candidates tried is never the limit of a search. -/
theorem State.seekSlot_fuel (mode : ClipMode) (ex : Option Nat) (n m : Nat) (s : State)
    (hn : s.clip.takeables ≤ n) (hm : s.clip.takeables ≤ m) : s.seekSlot mode ex n = s.seekSlot mode ex m := by
  induction n generalizing s m with
  | zero =>
    cases m with
    | zero => rfl
    | succ m =>
      have : s.clip.candidate mode ex = none := by
        cases hc : s.clip.candidate mode ex with
        | none => rfl
        | some i =>
          obtain ⟨h1, -, h3⟩ := s.clip.candidate_spec hc
          have := s.clip.takeables_pos h1 h3
          omega
      simp [State.seekSlot, this]
  | succ n ih =>
    cases hc : s.clip.candidate mode ex with
    | none => cases m <;> simp [State.seekSlot, hc]
    | some i =>
      obtain ⟨h1, -, h3⟩ := s.clip.candidate_spec hc
      have h4 := s.markUnusable_takeables h1 h3
      cases m with
      | zero => omega
      | succ m =>
        simp only [State.seekSlot, hc]
        split
        · exact ih _ _ (by omega) (by omega)
        · rfl

/-- A search whose first candidate has no usable block goes on with that slot UNUSABLE (R91). -/
theorem State.seekSlot_unusable (s : State) {mode : ClipMode} {ex : Option Nat} {i : Nat}
    (h : s.clip.candidate mode ex = some i) (hz : (s.contributions i).sum = 0) :
    s.seekSlot mode ex 65 = (s.markUnusable i).seekSlot mode ex 65 := by
  obtain ⟨h1, -, h3⟩ := s.clip.candidate_spec h
  have h4 := s.markUnusable_takeables h1 h3
  have h5 := s.clip.takeables_le
  rw [State.seekSlot]
  simp only [h, hz, if_true]
  exact State.seekSlot_fuel _ _ _ _ _ (by omega) (by omega)

/-- A search whose first candidate has usable blocks ends there (R91). -/
theorem State.seekSlot_found (s : State) {mode : ClipMode} {ex : Option Nat} {i : Nat}
    (h : s.clip.candidate mode ex = some i) (hz : (s.contributions i).sum ≠ 0) :
    s.seekSlot mode ex 65 = (s, some i) := by simp [State.seekSlot, h, hz]

/-- A search without a candidate finds nothing (R91). -/
theorem State.seekSlot_none (s : State) {mode : ClipMode} {ex : Option Nat} (h : s.clip.candidate mode ex = none) :
    s.seekSlot mode ex 65 = (s, none) := by simp [State.seekSlot, h]

/-- What a search leaves: only slots marked UNUSABLE differ, and a slot found could be taken (R91). -/
theorem State.seekSlot_spec (s : State) (mode : ClipMode) (ex : Option Nat) (n : Nat) :
    let r := s.seekSlot mode ex n
    r.1.buffer = s.buffer ∧ r.1.clip.filling = s.clip.filling ∧ r.1.clip.state = s.clip.state ∧
    r.1.clip.takeables ≤ s.clip.takeables ∧
    ∀ i, r.2 = some i → i < 64 ∧ some i ≠ ex ∧ (r.1.clip.slot i).takeable = true := by
  induction n generalizing s with
  | zero => simp [State.seekSlot]
  | succ n ih =>
    cases hc : s.clip.candidate mode ex with
    | none => simp [State.seekSlot, hc]
    | some i =>
      obtain ⟨h1, h2, h3⟩ := s.clip.candidate_spec hc
      simp only [State.seekSlot, hc]
      split
      · obtain ⟨a, b, c, d, e⟩ := ih (s.markUnusable i)
        have h4 := s.markUnusable_takeables h1 h3
        exact ⟨a, b, c, by omega, e⟩
      · refine ⟨rfl, rfl, rfl, le_rfl, ?_⟩
        intro j hj; cases hj; exact ⟨h1, h2, h3⟩

/-! ### Each piece of the standing work lowers what is left -/

theorem State.requestFlush_queue (s : State) (m : Option Word32) :
    (s.requestFlush m).buffer.queue = s.buffer.queue ∧ (s.requestFlush m).clip.slots = s.clip.slots ∧
    ((s.requestFlush m).clip.filling = s.clip.filling ∨
      ∃ f, s.clip.filling = some f ∧ (s.requestFlush m).clip.filling = some f.endStream) := by
  unfold State.requestFlush
  split
  · simp
  · unfold State.padMark
    split
    · split
      · rename_i h _ _; exact ⟨rfl, rfl, .inr ⟨_, h, rfl⟩⟩
      · exact ⟨rfl, rfl, .inl rfl⟩
    · exact ⟨rfl, rfl, .inl rfl⟩

theorem Filling.endStream_phase (f : Filling) (b : Bool) : f.endStream.phase b = f.phase b := by
  unfold Filling.endStream; split <;> rfl

/-- The work left is that of the segment being filled. -/
theorem State.workLeft_some {s : State} {f : Filling} (h : s.clip.filling = some f) :
    s.workLeft = 2 * s.buffer.unplaced + s.clip.takeables + f.phase s.buffer.standing + 1 := by
  simp [State.workLeft, h]

theorem State.workLeft_none {s : State} (h : s.clip.filling = none) : s.workLeft = 0 := by simp [State.workLeft, h]

/-- A segment taken, with nothing placed in it. -/
theorem State.takeSlot_work (s : State) {i : Nat} (h : i < 64) (ht : (s.clip.slot i).takeable = true) (x : ClipState) :
    ((s.takeSlot i).setClipState x).workLeft = 2 * s.buffer.unplaced + s.clip.takeables := by
  have h1 : ((s.takeSlot i).setClipState x).clip.takeables + 1 = s.clip.takeables :=
    s.clip.setSlot_takeables_lt h ht (by simp [Slot.takeable, Slot.taken])
  have h2 : ((s.takeSlot i).setClipState x).clip.filling = some (s.newFilling i) := rfl
  have h3 : ((s.takeSlot i).setClipState x).buffer = s.buffer := rfl
  rw [State.workLeft_some h2, h3]
  simp only [Filling.phase, State.newFilling]
  simp only [Bool.false_eq_true, if_false]
  omega

theorem State.drained_spec {s : State} {f : Filling} {cause : CloseCause} (h : s.drained = some (f, cause)) :
    s.clip.filling = some f ∧ f.pending = some cause ∧ s.buffer.standing = false := by
  unfold State.drained at h
  split at h
  · cases h
  · split at h
    · cases h
    · split at h
      · cases h
      · rename_i hn
        cases h
        simp only [Bool.or_eq_true, not_or] at hn
        refine ⟨by assumption, by assumption, ?_⟩
        simpa [ChunkBuffer.standing] using hn.2

/-- A drained segment closed leaves less to do. -/
theorem State.finishRollover_work {s : State} {f : Filling} {cause : CloseCause} (h : s.drained = some (f, cause)) :
    (s.finishRollover f cause).workLeft < s.workLeft := by
  obtain ⟨hf, hp, hs⟩ := State.drained_spec h
  have hw := State.workLeft_some hf
  obtain ⟨h1, h2, h3, h4, h5⟩ := s.seekSlot_spec s.clip.mode (some f.slot) 65
  unfold State.finishRollover
  split <;> rename_i s1 r heq <;> rw [heq] at h1 h2 h3 h4 h5 <;> simp only at h1 h2 h3 h4 h5
  · obtain ⟨h6, h7, h8⟩ := h5 _ rfl
    have hc : ∀ e, (s1.closeSegment e).clip.takeables ≤ s1.clip.takeables + 1 ∧
        (s1.closeSegment e).buffer = s1.buffer ∧ ((s1.closeSegment e).clip.slot r).takeable = true := by
      intro e
      have hfill : s1.clip.filling = some f := h2.trans hf
      unfold State.closeSegment
      simp only [hfill]
      refine ⟨(s1.clip.setSlot_takeables_le _ _).trans (by gcongr; exact ite_le_one le_rfl (by omega)), rfl, ?_⟩
      refine Eq.trans (congrArg Slot.takeable (s1.clip.setSlot_slot f.slot r _)) ?_
      rw [if_neg (by rintro ⟨rfl, -⟩; exact h7 rfl)]
      exact h8
    obtain ⟨h9, h10, h11⟩ := hc (cause.reason true)
    rw [State.takeSlot_work _ h6 h11, h10, h1, hw]
    simp [Filling.phase, hp, hs]
    omega
  · rw [State.workLeft_none rfl, hw]; omega

theorem State.nextPlacement_spec {s : State} {f : Filling} {c : Chunk} (h : s.nextPlacement = some (f, c)) :
    s.clip.filling = some f ∧ f.pending = none ∧ s.clip.state.isOpen = true ∧ c.state ≠ .receiving ∧
    s.buffer.queue.find? (fun c => c.place.isNone) = some c := by
  unfold State.nextPlacement at h
  split at h
  · rename_i f' c' hf hc
    split at h
    · rename_i hg
      simp only [Bool.and_eq_true, decide_eq_true_eq, Option.isNone_iff_eq_none] at hg
      cases h
      exact ⟨hf, hg.1.2, hg.1.1, hg.2, hc⟩
    · cases h
  · cases h

/-- Descriptors changed in place so that one with no placement gets one and no placement is lost. -/
theorem ChunkBuffer.unplaced_map_lt (b : ChunkBuffer) {g : Chunk → Chunk} {c : Chunk} (hc : c ∈ b.queue)
    (h1 : c.place = none) (h2 : (g c).place ≠ none) (h3 : ∀ d, d.place ≠ none → (g d).place ≠ none) :
    (b.mapQueue g).unplaced + 1 ≤ b.unplaced ∧ (b.mapQueue g).standing = true := by
  constructor
  · unfold ChunkBuffer.unplaced ChunkBuffer.mapQueue
    simp only [List.countP_map]
    have hle : ∀ l : List Chunk, l.countP ((fun c => c.place.isNone) ∘ g) ≤ l.countP (fun c => c.place.isNone) :=
      fun l => List.countP_mono_left (fun d _ hd => by
        by_contra hn
        simp only [Function.comp_apply, Option.isNone_iff_eq_none] at hd hn
        exact h3 d hn hd)
    obtain ⟨p, q, hq⟩ := List.append_of_mem hc
    rw [hq]
    simp only [List.countP_append, List.countP_cons]
    have := hle p
    have := hle q
    simp only [Function.comp_apply, Option.isNone_iff_eq_none, h1, h2, if_true, if_false]
    omega
  · unfold ChunkBuffer.standing ChunkBuffer.mapQueue
    simp only [List.any_map, List.any_eq_true]
    exact ⟨c, hc, by simpa [Option.isSome_iff_ne_none] using h2⟩

theorem Filling.placed_phase {f : Filling} (h1 : f.pending = none) (h2 : f.anyPlaced = true) :
    f.phase true = 1 := by simp [Filling.phase, h1, h2]

/-- A slot replaced by one that could be taken as well, or as little. -/
theorem ClipRecorder.setSlot_takeables_eq (c : ClipRecorder) (i : Nat) {x : Slot}
    (hx : x.takeable = (c.slot i).takeable) : (c.setSlot i x).takeables = c.takeables := by
  by_cases h : i < 64
  · rw [c.setSlot_takeables h, hx]
    split
    · have := c.takeables_pos h (by assumption); omega
    · omega
  · rw [c.setSlot_outside (by omega)]

/-- A chunk placed leaves less to do. -/
theorem State.placeChunk_work {s : State} {f : Filling} {c : Chunk} (hf : s.clip.filling = some f)
    (hp : f.pending = none) (hc : c ∈ s.buffer.queue) (hn : c.place = none) :
    (s.placeChunk f c).workLeft < s.workLeft := by
  have hw := State.workLeft_some hf
  obtain ⟨h1, h2⟩ := s.buffer.unplaced_map_lt
    (g := fun d => if d.seq = c.seq then { d with state := .placed, place := some f.placement, acked := 0 } else d)
    hc hn (by simp) (by intro d hd; split <;> simp_all)
  have hq : (s.placeChunk f c).buffer = s.buffer.mapQueue
      (fun d => if d.seq = c.seq then { d with state := .placed, place := some f.placement, acked := 0 } else d) := by
    unfold State.placeChunk; simp only; split <;> rfl
  have ht : (s.placeChunk f c).clip.takeables = s.clip.takeables := by
    unfold State.placeChunk
    simp only
    split
    · rfl
    · exact s.clip.setSlot_takeables_eq f.slot rfl
  have hx : ∃ f', (s.placeChunk f c).clip.filling = some f' ∧ f'.phase true = 1 := by
    refine ⟨_, rfl, ?_⟩
    split
    · rw [Filling.endStream_phase]; exact Filling.placed_phase hp rfl
    · exact Filling.placed_phase hp rfl
  obtain ⟨f', hf', h3⟩ := hx
  rw [State.workLeft_some hf', hw, hq, h2, h3, ht]
  omega

/-- A rollover begun leaves less to do. -/
theorem State.beginRollover_work {s : State} {f : Filling} (hf : s.clip.filling = some f) (hp : f.pending = none)
    (ha : f.anyPlaced = true) (cause : CloseCause) : (s.beginRollover f cause).workLeft < s.workLeft := by
  have hw := State.workLeft_some hf
  unfold State.beginRollover
  simp only
  generalize hs' : s.setFilling { f.endStream with pending := some cause } = s'
  have h1 : s'.clip.filling = some { f.endStream with pending := some cause } := by rw [← hs']; rfl
  have h2 : s'.buffer = s.buffer := by rw [← hs']; rfl
  have h3 : s'.clip.slots = s.clip.slots := by rw [← hs']; rfl
  obtain ⟨h4, h5, h6⟩ := s'.requestFlush_queue s'.buffer.lastPlaced
  generalize s'.requestFlush s'.buffer.lastPlaced = s'' at *
  have h7 : s''.buffer.unplaced = s.buffer.unplaced ∧ s''.buffer.standing = s.buffer.standing := by
    simp [ChunkBuffer.unplaced, ChunkBuffer.standing, h4, h2]
  have h8 : s''.clip.takeables = s.clip.takeables := by simp [ClipRecorder.takeables, h5, h3]
  have h9 : ∃ f', s''.clip.filling = some f' ∧ ∀ b, f'.phase b + 1 = f.phase b := by
    have hb : ∀ b, Filling.phase { f.endStream with pending := some cause } b + 1 = f.phase b := by
      intro b; simp [Filling.phase, hp, ha]; split <;> rfl
    rcases h6 with h | ⟨g, hg, h⟩
    · exact ⟨_, h.trans h1, hb⟩
    · rw [h1] at hg; cases hg
      exact ⟨_, h, fun b => by rw [Filling.endStream_phase]; exact hb b⟩
  obtain ⟨f', hf', h10⟩ := h9
  have := h10 s.buffer.standing
  rw [State.workLeft_some hf', hw, h7.1, h7.2, h8]
  omega

theorem State.endStreamAt_spec (s : State) (f : Filling) (pos : Nat) :
    (s.endStreamAt f pos).buffer = s.buffer ∧ (s.endStreamAt f pos).clip.takeables = s.clip.takeables ∧
    ∃ f', (s.endStreamAt f pos).clip.filling = some f' ∧ f'.pending = f.pending ∧ ∀ b, f'.phase b ≤ f.phase b := by
  unfold State.endStreamAt
  simp only
  have hph : ∀ g : Filling, g.pending = f.pending → g.anyPlaced = f.anyPlaced → ∀ b, g.phase b ≤ f.phase b := by
    intro g h1 h2 b; simp [Filling.phase, h1, h2]
  have hzero : ∀ g : Filling, g.pending = f.pending → ∀ b, Filling.phase { g with anyPlaced := false } b ≤ f.phase b := by
    intro g h1 b
    simp only [Filling.phase, h1]
    split
    · exact le_rfl
    · simp
  have he : ∀ g : Filling, g.endStream.pending = g.pending ∧ g.endStream.anyPlaced = g.anyPlaced := by
    intro g; unfold Filling.endStream; split <;> simp
  split
  · unfold State.noneStanding
    refine ⟨rfl, s.clip.setSlot_takeables_eq _ rfl, _, rfl, ?_, hzero _ ?_⟩ <;> split <;> simp [he]
  · refine ⟨rfl, rfl, _, rfl, ?_, hph _ ?_ ?_⟩ <;> split <;> simp [he]

/-- A descriptor with no placement discarded, and all after it. -/
theorem ChunkBuffer.discardFrom_unplaced (b : ChunkBuffer) {c : Chunk} (hc : c ∈ b.queue) (hn : c.place = none) :
    (b.discardFrom c.seq).unplaced + 1 ≤ b.unplaced := by
  have h1 : (b.discardFrom c.seq).queue = b.queue.take (b.indexOf c.seq) := by simp [ChunkBuffer.discardFrom]
  have h2 : c ∉ b.queue.take (b.indexOf c.seq) := by
    intro hm
    obtain ⟨k, hk, hx⟩ := List.mem_take_iff_getElem.1 hm
    have := List.not_of_lt_findIdx (Nat.lt_of_lt_of_le hk (Nat.min_le_left _ _))
    simp [hx] at this
  have h3 : c ∈ b.queue.drop (b.indexOf c.seq) := by
    rw [← List.take_append_drop (b.indexOf c.seq) b.queue, List.mem_append] at hc
    exact hc.resolve_left h2
  unfold ChunkBuffer.unplaced
  rw [h1]
  conv_rhs => rw [← List.take_append_drop (b.indexOf c.seq) b.queue, List.countP_append]
  have : 1 ≤ (b.queue.drop (b.indexOf c.seq)).countP (fun c => c.place.isNone) := by
    rw [Nat.one_le_iff_ne_zero, ne_eq, List.countP_eq_zero]
    intro h; exact absurd (by simp [hn]) (h c h3)
  omega

/-- Chunks discarded in an emergency leave less to do. -/
theorem State.emergencyDiscard_work {s : State} {f : Filling} {c : Chunk} (hf : s.clip.filling = some f)
    (hp : f.pending = none) (hc : c ∈ s.buffer.queue) (hn : c.place = none) :
    (s.emergencyDiscard f c.seq).workLeft < s.workLeft := by
  have hw := State.workLeft_some hf
  have h1 := s.buffer.discardFrom_unplaced hc hn
  unfold State.emergencyDiscard
  simp only
  generalize hs' : ({ s with buffer := s.buffer.discardFrom c.seq } : State) = s'
  have h2 : s'.buffer = s.buffer.discardFrom c.seq := by rw [← hs']
  have h3 : s'.clip = s.clip := by rw [← hs']
  obtain ⟨h4, h5, f', h6, -, h7⟩ := s'.endStreamAt_spec f (s'.standingEnd f)
  rw [State.workLeft_some h6, hw, h4, h5, h2, h3]
  have h8 := h7 (s.buffer.discardFrom c.seq).standing
  have h9 : f.phase (s.buffer.discardFrom c.seq).standing ≤ f.phase s.buffer.standing + 1 := by
    simp only [Filling.phase, hp]
    split <;> (try split) <;> (try split) <;> omega
  omega

/-- A slot that no chunk fitted leaves less to do. -/
theorem State.unusableSegment_work {s : State} {f : Filling} {c : Chunk} (hf : s.clip.filling = some f) :
    (s.unusableSegment f c).workLeft < s.workLeft := by
  have hw := State.workLeft_some hf
  unfold State.unusableSegment
  simp only
  generalize hs' : (s.setSlot f.slot _).raise (.rolloverForced f.slot c.seq) = s'
  have h1 : s'.buffer = s.buffer := by rw [← hs']; rfl
  have h2 : s'.clip.takeables ≤ s.clip.takeables := by
    rw [← hs']
    exact (s.clip.setSlot_takeables_le _ _).trans (by simp [Slot.takeable])
  obtain ⟨h3, -, -, h4, h5⟩ := s'.seekSlot_spec s'.clip.mode none 65
  split <;> rename_i s2 r heq <;> rw [heq] at h3 h4 h5 <;> simp only at h3 h4 h5
  · obtain ⟨h6, -, h8⟩ := h5 _ rfl
    rw [State.takeSlot_work _ h6 h8, hw, h3, h1]
    omega
  · rw [State.workLeft_none rfl, hw]; omega

/-- The work left does not depend on whether a keyframe is awaited. -/
theorem State.awaitKeyframe_spec (s : State) (f : Filling) : (s.awaitKeyframe f).buffer = s.buffer ∧
    (s.awaitKeyframe f).clip.filling = s.clip.filling ∧ (s.awaitKeyframe f).clip.slots = s.clip.slots := by
  unfold State.awaitKeyframe; split <;> exact ⟨rfl, rfl, rfl⟩

/-- Every judgement of the next chunk leaves less to do (R93, R100). -/
theorem State.judgePlacement_work {s : State} {f : Filling} {c : Chunk} (h : s.nextPlacement = some (f, c)) :
    (s.judgePlacement f c).workLeft < s.workLeft := by
  obtain ⟨hf, hp, -, -, hq⟩ := State.nextPlacement_spec h
  have hc := List.mem_of_find?_eq_some hq
  have hn : c.place = none := by simpa using List.find?_some hq
  obtain ⟨h1, h2, h3⟩ := s.awaitKeyframe_spec f
  have hw : (s.awaitKeyframe f).workLeft = s.workLeft := by
    simp [State.workLeft, h1, h2, ClipRecorder.takeables, h3]
  have hf' := h2.trans hf
  have hc' : c ∈ (s.awaitKeyframe f).buffer.queue := by rw [h1]; exact hc
  rw [← hw]
  unfold State.judgePlacement
  simp only
  split
  · split
    · exact State.placeChunk_work hf' hp hc' hn
    · exact State.emergencyDiscard_work hf' hp hc' hn
  · split
    · rename_i hk; exact State.beginRollover_work hf' hp hk.2.2.2 _
    · split
      · exact State.placeChunk_work hf' hp hc' hn
      · split
        · rename_i ha
          have h4 : ((s.awaitKeyframe f).raise (.rolloverForced f.slot c.seq)).workLeft = (s.awaitKeyframe f).workLeft := rfl
          rw [← h4]
          exact State.beginRollover_work (s := (s.awaitKeyframe f).raise (.rolloverForced f.slot c.seq)) hf' hp ha _
        · exact State.unusableSegment_work hf'

/-! ### The standing work, piece by piece -/

theorem State.advanceClip_enough (n : Nat) (s : State) (h : s.workLeft ≤ n) :
    s.advanceClip n = s.advanceClip (n + 1) := by
  induction n generalizing s with
  | zero =>
    have hf : s.clip.filling = none := by
      cases hf : s.clip.filling with
      | none => rfl
      | some f => rw [State.workLeft_some hf] at h; omega
    simp [State.advanceClip, State.drained, State.nextPlacement, hf]
  | succ n ih =>
    conv_lhs => unfold State.advanceClip
    conv_rhs => unfold State.advanceClip
    split
    · rename_i hd
      exact ih _ (by have := State.finishRollover_work hd; omega)
    · split
      · rename_i hp
        exact ih _ (by have := State.judgePlacement_work hp; omega)
      · rfl

/-- More than enough is as good as enough. -/
theorem State.advanceClip_fuel (s : State) {n m : Nat} (hn : s.workLeft ≤ n) (hm : s.workLeft ≤ m) :
    s.advanceClip n = s.advanceClip m := by
  have key : ∀ k, s.advanceClip s.workLeft = s.advanceClip (s.workLeft + k) := by
    intro k
    induction k with
    | zero => rfl
    | succ k ih => rw [ih, State.advanceClip_enough _ _ (by omega)]; rfl
  rw [← Nat.add_sub_cancel' hn, ← Nat.add_sub_cancel' hm, ← key, ← key]

/-- The bound on the standing work of one event is always enough. -/
theorem State.workLeft_le_fuel (s : State) : s.workLeft + 1 ≤ s.clipFuel := by
  unfold State.workLeft State.clipFuel
  have h1 : s.buffer.unplaced ≤ s.buffer.queue.length := List.countP_le_length
  have h2 := s.clip.takeables_le
  split
  · omega
  · rename_i f _
    have := f.phase_le s.buffer.standing
    omega

/-- One piece of the standing work: a drained segment closed, and the rest after it (R94). -/
theorem State.settleClip_finish {s : State} {f : Filling} {cause : CloseCause} (h : s.drained = some (f, cause)) :
    s.settleClip = (s.finishRollover f cause).settleClip := by
  have h1 := State.finishRollover_work h
  have h2 := s.workLeft_le_fuel
  have h3 := (s.finishRollover f cause).workLeft_le_fuel
  unfold State.settleClip
  congr 1
  obtain ⟨n, hn⟩ : ∃ n, s.clipFuel = n + 1 := ⟨s.clipFuel - 1, by omega⟩
  rw [hn, State.advanceClip, h]
  exact State.advanceClip_fuel _ (by omega) (by omega)

/-- One piece of the standing work: the next chunk judged, and the rest after it (R92, R93, R100). -/
theorem State.settleClip_judge {s : State} {f : Filling} {c : Chunk} (hd : s.drained = none)
    (h : s.nextPlacement = some (f, c)) : s.settleClip = (s.judgePlacement f c).settleClip := by
  have h1 := State.judgePlacement_work h
  have h2 := s.workLeft_le_fuel
  have h3 := (s.judgePlacement f c).workLeft_le_fuel
  unfold State.settleClip
  congr 1
  obtain ⟨n, hn⟩ : ∃ n, s.clipFuel = n + 1 := ⟨s.clipFuel - 1, by omega⟩
  rw [hn, State.advanceClip, hd]
  simp only [h]
  exact State.advanceClip_fuel _ (by omega) (by omega)

/-- With nothing drained and nothing to place, only a close whose queue is empty is left (R92, R94, R99, R100). -/
theorem State.settleClip_done {s : State} (hd : s.drained = none) (h : s.nextPlacement = none) :
    s.settleClip = s.finishClose := by
  have h2 := s.workLeft_le_fuel
  unfold State.settleClip
  congr 1
  obtain ⟨n, hn⟩ : ∃ n, s.clipFuel = n + 1 := ⟨s.clipFuel - 1, by omega⟩
  rw [hn, State.advanceClip, hd]
  simp only [h]

/-- While a close is pending nothing is placed (R92). -/
theorem State.nextPlacement_none_of_pending {s : State} {f : Filling} (hf : s.clip.filling = some f)
    (hp : f.pending ≠ none) : s.nextPlacement = none := by
  unfold State.nextPlacement
  rw [hf]
  split
  · rename_i h _; cases h; simp [Option.isNone_iff_eq_none, hp]
  · rfl

/-- In IDLE with no segment FILLING there is no standing work. -/
theorem State.settleClip_idle {s : State} (hf : s.clip.filling = none) (hi : s.clip.state = .idle) :
    s.settleClip = s := by
  rw [State.settleClip_done (by simp [State.drained, hf]) (by simp [State.nextPlacement, hf])]
  unfold State.finishClose
  simp [hi]

/-- The end of an event is known once the standing work is. -/
theorem State.conclude_congr {s u : State} (h : s.settleClip = u.settleClip) : s.conclude = u.conclude := by
  unfold State.conclude State.settle; rw [h]

/-- Two slots replaced in either order. -/
theorem setIfInBounds_comm (v : Vector Slot 64) {i j : Nat} (h : i ≠ j) (a b : Slot) :
    (v.setIfInBounds i a).setIfInBounds j b = (v.setIfInBounds j b).setIfInBounds i a := by
  apply Vector.ext; intro k hk; simp only [Vector.getElem_setIfInBounds]; grind

/-- A slot replaced by itself. -/
theorem ClipRecorder.setSlot_self (c : ClipRecorder) (i : Nat) : c.slots.setIfInBounds i (c.slot i) = c.slots := by
  apply Vector.ext; intro j hj
  rw [Vector.getElem_setIfInBounds]
  split
  · rename_i h; subst h; simp [ClipRecorder.slot, hj]
  · rfl

theorem ClipRecorder.slot_outside (c : ClipRecorder) {j : Nat} (h : 64 ≤ j) : (c.slot j).state = .empty := by
  simp [ClipRecorder.slot, h, Slot.reset]

/-- With the FILLING slot made UNUSABLE, a search among all slots tries what one among the others would (R91, R93). -/
theorem ClipRecorder.Chosen.transfer {c c' : ClipRecorder} {mode : ClipMode} {i k : Nat}
    (h : c.Chosen mode (some k) i) {x : Slot} (hu : x.state = .unusable)
    (hx : ∀ j, c'.slot j = if k = j ∧ j < 64 then x else c.slot j) : c'.Chosen mode none i := by
  obtain ⟨h1, h2, h3⟩ := h
  have hne : ¬k = i := fun e => h2 (by rw [e])
  have hi : c'.slot i = c.slot i := by rw [hx, if_neg (by tauto)]
  refine ⟨h1, by simp, ?_⟩
  rw [hi]
  rcases h3 with ⟨a, b⟩ | ⟨a, b, hc, d, e⟩
  · refine .inl ⟨a, fun j hj _ => ?_⟩
    rw [hx]
    split
    · simp [hu]
    · rename_i hn
      exact b j hj (by intro e; cases e; exact hn ⟨rfl, by omega⟩)
  · refine .inr ⟨a, fun j _ => ?_, hc, d, fun j _ hj => ?_⟩
    · rw [hx]
      split
      · simp [hu]
      · rename_i hn
        by_cases e : j = k
        · subst e; rw [c.slot_outside (by by_contra; exact hn ⟨rfl, by omega⟩)]; simp
        · exact b j (by simpa using e)
    · rw [hx]
      split
      · simp [hu]
      · rename_i hn
        by_cases e' : j = k
        · subst e'; rw [c.slot_outside (by by_contra; exact hn ⟨rfl, by omega⟩)]; simp
        · exact e j (by simpa using e') hj

theorem ClipRecorder.NoSlot.transfer {c c' : ClipRecorder} {mode : ClipMode} {k : Nat} (h : c.NoSlot mode (some k))
    {x : Slot} (hu : x.state = .unusable) (hx : ∀ j, c'.slot j = if k = j ∧ j < 64 then x else c.slot j) :
    c'.NoSlot mode none := by
  intro j _
  rw [hx]
  split
  · simp [hu]
  · rename_i hn
    by_cases e : j = k
    · subst e; rw [c.slot_outside (by by_contra; exact hn ⟨rfl, by omega⟩)]; simp
    · exact h j (by simpa using e)

/-! ### The stream's end and the flush mark (R76, R77) -/

/-- A stream ended: filled up to the block boundary (R77). -/
theorem Filling.endStream_eq (f : Filling) : f.endStream = { f with
    placement := (f.placement + 511) / 512 * 512
    fillers := if f.placement % 512 = 0 then f.fillers else f.fillers ++ [f.placement] } := by
  unfold Filling.endStream
  split
  · rename_i h
    have e : (f.placement + 511) / 512 * 512 = f.placement := by omega
    rw [e]
  · rename_i h
    have e : (f.placement / 512 + 1) * 512 = (f.placement + 511) / 512 * 512 := by omega
    rw [e]

/-- A stream that already ends at a block boundary is not filled for a mark. -/
theorem State.padMark_block {s : State} {f : Filling} (hf : s.clip.filling = some f) (h : f.placement % 512 = 0) :
    s.padMark = s := by
  unfold State.padMark
  rw [hf]
  split
  · rename_i h3 h4
    cases h3
    split
    · unfold Filling.endStream; rw [if_pos h]; unfold State.setFilling; rw [← hf]
    · rfl
  · rfl

/-- A flush requested for a stream that ends at a block boundary: the later of the marks stands (R76). -/
theorem State.requestFlush_block {s : State} {f : Filling} (hf : s.clip.filling = some f) (h : f.placement % 512 = 0)
    (m : Word32) : s.requestFlush (some m) =
    { s with buffer := { s.buffer with flush := some (s.buffer.combineMark m) } } := by
  unfold State.requestFlush
  exact State.padMark_block hf h

end Sys2Proof.Machine
end

