-- ==== Sys2Proof/Laws/Card.lean ====
section
/-! SUPPORT. What the card controller's operations leave: the end of a run, the next block of one, and the answers that
count. -/
namespace Sys2Proof.Machine

/-- An answer counts while the operation in flight has not run out of its time (R103). -/
theorem State.awaited_eq {s : State} {op : CardOp} {d : Time} (hb : s.card.bus = some { op := op, deadline := d })
    (ht : atOrAfter d s.now = true) : s.awaited = some op := by
  simp [State.awaited, hb, ht]

/-- Whether a run's end puts the card to sleep, condition by condition (R121). -/
theorem State.sleepAllowed_iff (s : State) : s.sleepAllowed = true ↔ s.clip.cfg.sleepEnable = true ∧
    s.buffer.flush = none ∧ s.buffer.pendingBytes < 1024 * s.clip.cfg.batchKiB ∧
    s.buffer.runDue s.clip.cfg.batchKiB = false := by
  unfold State.sleepAllowed ChunkBuffer.batchDue State.runDue
  simp only [Bool.and_eq_true, Bool.not_eq_true', decide_eq_false_iff_not, Nat.not_le, and_assoc,
    Option.isNone_iff_eq_none]

/-- The end of a run: the grant released, and the card put to sleep where R121 allows (R109, R121). -/
theorem State.leaveRun_eq (s : State) : s.leaveRun = { s with
    budget := { s.budget with grant := .none }
    card := { s.card with
      run := none, state := .ready
      bus := if s.sleepAllowed then some { op := .sleep, deadline := later s.now 50000 } else none } } := by
  have h : (State.clearBus (State.setGrant { s with card := { s.card with run := none } } .none)).sleepAllowed =
      s.sleepAllowed := rfl
  unfold State.leaveRun
  simp only [h]
  split <;> rfl

/-- Whether a run's current block may be sent, condition by condition (R108). -/
theorem State.blockAllowed_iff {s : State} {f : Filling} (hf : s.clip.filling = some f) (r : Run) :
    s.blockAllowed r = true ↔
      f.slot = r.slot ∧ r.first + r.acked < f.placement / 512 ∧
      s.granuleWritable (s.clip.cfg.granuleOf r.current) = true ∧
      (∀ e ∈ s.card.badList, e.granule ≠ s.clip.cfg.granuleOf r.current) ∧
      (s.clip.slot f.slot).first ≤ s.clip.cfg.granuleOf r.current ∧
      s.clip.cfg.granuleOf r.current < (s.clip.slot f.slot).first + (s.clip.slot f.slot).count := by
  unfold State.blockAllowed
  simp only [hf, Option.any_some, CardController.isBad]
  simp
  grind

/-- The next block of a run where it may be sent (R108). -/
theorem State.nextBlock_sent {s : State} {f : Filling} {r : Run} (hf : s.clip.filling = some f)
    (h : r.acked < r.count ∧ s.blockAllowed r = true) : s.nextBlock r = { s with card := { s.card with
      run := some r
      bus := some { op := .block r.current (s.blockBytes f (r.first + r.acked)), deadline := later s.now 50000 } } } := by
  unfold State.nextBlock
  rw [hf]
  simp only
  rw [if_pos h]
  rfl

/-- A run that has no next block, or none that may be sent, ends with CLOSE_RUN (R108, R109). -/
theorem State.nextBlock_closes {s : State} {r : Run}
    (h : s.clip.filling ≠ none → ¬(r.acked < r.count ∧ s.blockAllowed r = true)) :
    s.nextBlock r = { s with card := { s.card with
      run := some { r with after := .leave }, bus := some { op := .closeRun, deadline := later s.now 50000 } } } := by
  unfold State.nextBlock
  split
  · rfl
  · rename_i f hf
    rw [if_neg (h (by rw [hf]; simp))]
    rfl

/-- A block acknowledged to the segment that the run writes (R70, R96). -/
theorem State.ackBlock_eq {s : State} {f : Filling} {slot : Nat} (hf : s.clip.filling = some f) (hs : f.slot = slot)
    (n : Nat) : s.ackBlock slot n = { s with
      buffer := (s.buffer.mapQueue (Chunk.credit n)).popWritten
      clip := { s.clip with
        filling := some { f with front := if n = f.front then n + 1 else f.front }
        slots := match (s.buffer.mapQueue (Chunk.credit n)).writtenHead.getLast? with
          | none => s.clip.slots
          | some c => s.clip.slots.setIfInBounds slot { s.clip.slot slot with
            streamLen := c.streamEnd, lastSeq := some c.seq } } } := by
  subst hs
  unfold State.ackBlock
  simp only [hf, if_true]
  unfold State.setFilling State.setSlot ClipRecorder.setSlot
  cases (s.buffer.mapQueue (Chunk.credit n)).writtenHead.getLast? with
  | none => simp only [s.clip.setSlot_self]
  | some c => rfl

/-- A block that belongs to no segment being filled is acknowledged to none (R96). -/
theorem State.ackBlock_other {s : State} {slot : Nat} (h : s.clip.filling.map Filling.slot ≠ some slot) (n : Nat) :
    s.ackBlock slot n = s := by
  unfold State.ackBlock
  split
  · rfl
  · rename_i f hf
    rw [hf] at h
    exact if_neg (by simpa using h)

end Sys2Proof.Machine
end

