-- ==== Sys2Proof/Laws/Link.lean ====
section
/-! SUPPORT. What taking a request and the outbound arbiter can do. -/
namespace Sys2Proof.Machine

variable (s : State)

/-! ### The arbiter (R167) -/

/-- Everything the outbound arbiter can do: nothing, or take one record, one ready answer or one notice. -/
theorem arbitrate_cases :
    s.arbitrate = s ∨
    (∃ r rs, s.frame.sendList = r :: rs ∧
      s.arbitrate = State.transmit { s with frame := { s.frame with sendList := rs } } (motionPacket r)) ∨
    (∃ r rs code data, s.frame.sendList = [] ∧ s.link.outstanding = r :: rs ∧ r.answer = .ready code data ∧
      s.arbitrate = State.transmit { s with link := { s.link with outstanding := rs } }
        (answerPacket r.tag code data)) ∨
    (∃ e es, s.frame.sendList = [] ∧ s.link.notices = e :: es ∧
      s.arbitrate = State.transmit { s with link := { s.link with notices := es } } (noticePacket e)) := by
  have notice : s.sendNotice = s ∨ ∃ e es, s.link.notices = e :: es ∧
      s.sendNotice = State.transmit { s with link := { s.link with notices := es } } (noticePacket e) := by
    unfold State.sendNotice
    split
    · exact .inl rfl
    · exact .inr ⟨_, _, ‹_›, rfl⟩
  unfold State.arbitrate
  split
  · exact .inl rfl
  · split
    · exact .inr (.inl ⟨_, _, ‹_›, rfl⟩)
    · rename_i hs
      unfold State.sendAnswer
      split
      · rcases notice with h | ⟨e, es, he, h⟩
        · exact .inl h
        · exact .inr (.inr (.inr ⟨e, es, hs, he, h⟩))
      · split
        · exact .inr (.inr (.inl ⟨_, _, _, _, hs, ‹_›, ‹_›, rfl⟩))
        · rcases notice with h | ⟨e, es, he, h⟩
          · exact .inl h
          · exact .inr (.inr (.inr ⟨e, es, hs, he, h⟩))
        · rcases notice with h | ⟨e, es, he, h⟩
          · exact .inl h
          · exact .inr (.inr (.inr ⟨e, es, hs, he, h⟩))

/-- The arbiter touches only the send list, the outstanding list, the notice set and the packet being sent. -/
theorem arbitrate_frame :
    ∃ send out ns packet, s.arbitrate =
      { s with frame := { s.frame with sendList := send },
               link := { s.link with outstanding := out, notices := ns, sending := packet } } := by
  rcases arbitrate_cases s with h | ⟨r, rs, -, h⟩ | ⟨r, rs, code, data, -, -, -, h⟩ | ⟨e, es, -, -, h⟩
  · exact ⟨s.frame.sendList, s.link.outstanding, s.link.notices, s.link.sending, h⟩
  · exact ⟨rs, s.link.outstanding, s.link.notices, _, h⟩
  · exact ⟨s.frame.sendList, rs, s.link.notices, _, h⟩
  · exact ⟨s.frame.sendList, s.link.outstanding, es, _, h⟩

@[simp] theorem arbitrate_capture : s.arbitrate.capture = s.capture := by
  obtain ⟨_, _, _, _, h⟩ := arbitrate_frame s; rw [h]
@[simp] theorem arbitrate_imu : s.arbitrate.imu = s.imu := by obtain ⟨_, _, _, _, h⟩ := arbitrate_frame s; rw [h]
@[simp] theorem arbitrate_motion : s.arbitrate.motion = s.motion := by
  obtain ⟨_, _, _, _, h⟩ := arbitrate_frame s; rw [h]
@[simp] theorem arbitrate_buffer : s.arbitrate.buffer = s.buffer := by
  obtain ⟨_, _, _, _, h⟩ := arbitrate_frame s; rw [h]
@[simp] theorem arbitrate_clip : s.arbitrate.clip = s.clip := by obtain ⟨_, _, _, _, h⟩ := arbitrate_frame s; rw [h]
@[simp] theorem arbitrate_card : s.arbitrate.card = s.card := by obtain ⟨_, _, _, _, h⟩ := arbitrate_frame s; rw [h]
@[simp] theorem arbitrate_charge : s.arbitrate.charge = s.charge := by
  obtain ⟨_, _, _, _, h⟩ := arbitrate_frame s; rw [h]
@[simp] theorem arbitrate_budget : s.arbitrate.budget = s.budget := by
  obtain ⟨_, _, _, _, h⟩ := arbitrate_frame s; rw [h]
@[simp] theorem arbitrate_pins : s.arbitrate.pins = s.pins := by obtain ⟨_, _, _, _, h⟩ := arbitrate_frame s; rw [h]
@[simp] theorem arbitrate_freeCount : s.arbitrate.freeCount = s.freeCount := by
  obtain ⟨_, _, _, _, h⟩ := arbitrate_frame s; rw [h]
@[simp] theorem arbitrate_pending : s.arbitrate.pending = s.pending := by
  obtain ⟨_, _, _, _, h⟩ := arbitrate_frame s; rw [h]
@[simp] theorem arbitrate_parked : s.arbitrate.link.parked = s.link.parked := by
  obtain ⟨_, _, _, _, h⟩ := arbitrate_frame s; rw [h]
@[simp] theorem arbitrate_parser : s.arbitrate.link.parser = s.link.parser := by
  obtain ⟨_, _, _, _, h⟩ := arbitrate_frame s; rw [h]
@[simp] theorem arbitrate_overruns : s.arbitrate.link.overruns = s.link.overruns := by
  obtain ⟨_, _, _, _, h⟩ := arbitrate_frame s; rw [h]
@[simp] theorem arbitrate_now : s.arbitrate.now = s.now := by simp [State.now]

/-! ### Requests (R159) -/

/-- Everything that taking a request can do: nothing where the parser takes none or the packet selects another row, the
drop behind eight requests, or the request's execution (R157, R159, R170, R174). -/
theorem takeRequest_cases (p : Packet) (selected : Bool) (kind : RequestKind) (body : State → Executed) :
    ((s.listening = false ∨ selected = false) ∧ s.takeRequest p selected kind body = s) ∨
    (8 ≤ s.link.outstanding.length ∧ s.takeRequest p selected kind body = s.received.overrun p.header .tooMany) ∨
    (s.listening = true ∧ selected = true ∧ s.link.outstanding.length < 8 ∧
      s.takeRequest p selected kind body = (body s.received).1.join p.header.b1 kind (body s.received).2) := by
  unfold State.takeRequest
  split
  · rename_i h
    rw [Bool.and_eq_true] at h
    split
    · exact .inr (.inl ⟨‹_›, rfl⟩)
    · exact .inr (.inr ⟨h.1, h.2, by omega, rfl⟩)
  · rename_i h
    rw [Bool.and_eq_true, not_and_or] at h
    exact .inl ⟨by simpa using h, rfl⟩

/-- A request row that is executed. `c` is the row, whose well-formedness says that the packet selects it. -/
theorem takeRequest_executes (c : Instr) (p : Packet) (selected : Bool) (kind : RequestKind) (body : State → Executed)
    (h : s.executes c) (hc : c.wf = selected) :
    s.takeRequest p selected kind body = (body s.received).1.join p.header.b1 kind (body s.received).2 := by
  obtain ⟨h1, h2, h3⟩ := h
  unfold State.takeRequest
  rw [if_pos (by rw [h1, ← hc, h2]; rfl), if_neg (by omega)]

/-- A COMMAND row with its argument length, executed. -/
theorem takeCommand_executes (c : Instr) (p : Packet) (code n : Nat) (body : State → Executed) (h : s.executes c)
    (hc : c.wf = p.isCommand code) (hn : p.payload.length = n) :
    s.takeCommand p code n body = (body s.received).1.join p.header.b1 .command (body s.received).2 := by
  unfold State.takeCommand
  rw [takeRequest_executes s c p _ _ _ h hc, if_pos hn]

/-- A TABLE_LOAD row whose load fits its table, executed. -/
theorem takeLoad_executes (c : Instr) (p : Packet) (table : Nat) (fits : Bool) (body : State → Executed)
    (h : s.executes c) (hc : c.wf = p.isLoad table) (hf : fits = true) :
    s.takeLoad p table fits body = (body s.received).1.join p.header.b1 .tableLoad (body s.received).2 := by
  unfold State.takeLoad
  rw [takeRequest_executes s c p _ _ _ h hc, if_pos hf]

/-! ### The end of an event -/

/-- What the end of an event leaves beyond the clip column, the notices and the packets waiting to be sent. -/
theorem conclude_spec :
    s.conclude.capture = s.capture ∧ s.conclude.imu = s.imu ∧ s.conclude.motion = s.motion ∧
    s.conclude.card = s.card ∧ s.conclude.charge = s.charge ∧ s.conclude.pins = s.pins ∧
    s.conclude.freeCount = s.freeCount ∧ s.conclude.pending = s.pending ∧
    (∃ g, s.conclude.budget = { s.budget with grant := g } ∧ (s.budget.grant = .held ↔ g = .held)) ∧
    s.conclude.buffer = s.settle.buffer ∧ s.conclude.clip = s.settle.clip := by
  obtain ⟨g, h, hg⟩ := settle_spec s
  have field {α : Type} (f : State → α) : f s.settle.beyondClip = f (s.beyondClip.setGrant g) := congrArg f h
  simp only [State.conclude, arbitrate_capture, arbitrate_imu, arbitrate_motion, arbitrate_card, arbitrate_charge,
    arbitrate_pins, arbitrate_freeCount, arbitrate_pending, arbitrate_budget, arbitrate_buffer, arbitrate_clip,
    and_true]
  exact ⟨field State.capture, field State.imu, field State.motion, field State.card, field State.charge,
    field State.pins, field State.freeCount, field State.pending, g, field State.budget, hg⟩

end Sys2Proof.Machine
end

