-- ==== Sys2Proof/Tests/Slice0.lean ====
section
/-! SUPPORT. Tests: the checks of WellFormed refuse an ill-formed term each; the spec's worked examples; and for each
statement with hypotheses a state and operands that meet them, clause by clause. Expected values are the spec's own,
from the section named. -/

open Sys2Proof Sys2Proof.Machine

namespace Sys2Proof.Tests

-- one theorem after another: with many evaluations at once Lean starts a thread, and its stack, for each
set_option Elab.async false

/-! ### Helpers -/

/-- A header with kind code k, tag 7, a payload length and a tail. -/
def head (k len tail : Nat) : Header :=
  { b0 := BitVec.ofNat 8 k, b1 := 7, len := BitVec.ofNat 16 len, tail := BitVec.ofNat 32 tail }

/-- A COMMAND packet with a code and argument bytes. -/
def cmd (code : Nat) (args : List Byte := []) : Packet := ⟨head 2 args.length code, args⟩

/-- A TABLE_LOAD packet: table code, first entry, entry count, payload. -/
def load (table first count : Nat) (payload : List Byte) : Packet :=
  ⟨head 3 payload.length (table + 32 * first + 65536 * count), payload⟩

/-- A TABLE_READ packet. -/
def read (table first count : Nat) : Packet := ⟨head 4 0 (table + 32 * first + 65536 * count), []⟩

/-- The state a command leaves; every command leaves one. -/
def after (c : Instr) (s : State) : State :=
  match exec c s with
  | .next t => t
  | .fault _ => s
  | .refused _ => s

/-- Commands executed one after another. -/
def run : List Instr → State → State
  | [], s => s
  | c :: cs, s => run cs (after c s)

/-- The ride clock set. -/
def State.at (s : State) (t : Nat) : State :=
  { s with capture := { s.capture with clock := BitVec.ofNat 40 t } }

/-- The part after reset with the return direction taken, so that answers stay in their list. -/
def quiet : State := { State.reset with link := { Link.reset with sending := some [] } }

/-! ### WellFormed refuses -/

theorem test_wf_readComplete : (Instr.readComplete [1, 2, 3]).wf = false := by decide
theorem test_wf_mediaHeader_kind : (Instr.mediaHeader (head 2 10 0)).wf = false := by decide
theorem test_wf_mediaHeader_length : (Instr.mediaHeader (head 1 65521 0)).wf = false := by decide
theorem test_wf_mediaPayload : (Instr.mediaPayloadComplete []).wf = false := by decide
theorem test_wf_malformed : (Instr.malformedPacket (head 2 4 0)).wf = false := by decide
theorem test_wf_command_code : (Instr.clipStart (cmd 2 [0, 0, 0, 0, 0])).wf = false := by decide
theorem test_wf_command_length : (Instr.status ⟨head 2 5 15, []⟩).wf = false := by decide
theorem test_wf_command_kind : (Instr.park ⟨head 3 0 16, []⟩).wf = false := by decide
theorem test_wf_unknown : (Instr.unknownCommand (cmd 17)).wf = false := by decide
theorem test_wf_load_table : (Instr.biasLoad (load 4 0 1 [0, 0, 0, 0])).wf = false := by decide
theorem test_wf_load_fits : (Instr.tableLoadOther (load 3 0 1 [0, 0, 0, 0])).wf = false := by decide
theorem test_wf_read : (Instr.tableRead (load 3 0 1 [])).wf = false := by decide
theorem test_wf_accepts : (Instr.tableRead (read 3 0 1)).wf = true ∧ (Instr.unknownCommand (cmd 18)).wf = true ∧
    (Instr.tableLoadOther (load 11 0 1 [0, 0, 0, 0])).wf = true ∧ (Instr.inputLimit (cmd 12 [1, 0])).wf = true := by
  decide

/-! ### Chapter 1 -/

/-- Section 1.3's sequence, to the lock at 5,006,130. -/
def drStart : State :=
  let s := State.at quiet 5000000
  { s with imu := { s.imu with active := true, state := .idle },
           capture := { s.capture with dr := s.capture.dr.startSession s.now 1000 } }

/-- A DR edge taken at a clock value, its read completed at once by hand. -/
def drAt (t : Nat) (s : State) : State :=
  let u := after .drEdge (State.at s t)
  { u with imu := { u.imu with state := .idle, txn := none } }

/-- The read's first byte is the sample address 0x22 with its top bit set (R15). -/
theorem test_read_address : (after .drEdge drStart).imu.txn = some (.read 0xA2 5000000) := by decide

theorem test_dr_runs :
    (drAt 5001600 (drAt 5000600 drStart)).capture.dr.lockRun = 1 ∧
    (drAt 5002900 (drAt 5001600 (drAt 5000600 drStart))).capture.dr.lockRun = 0 := by decide

/-- The state of section 1.3's sequence just before the edge at 5,006,130: run 2, last edge at 5,004,890. -/
def drNearLock : State :=
  { drStart with capture := { drStart.capture with
      dr := { drStart.capture.dr with last := 5004890, lockRun := 2, edgeSeen := true } } }

theorem test_dr_locks : (drAt 5006130 drNearLock).capture.dr.cadence = .locked ∧
    (drAt 5006130 drNearLock).capture.dr.deadline = some 5010130 := by decide

/-- Section 1.4's LENS copy: B 4, T_r 16000, latch offset −2000. -/
def lens4 : Lens := { Lens.reset with bands := 4, readout := 16000, latchOffset := -2000 }

theorem test_band_dues : (buildBands lens4 12000000).map BandDue.due = [12000000, 12004000, 12008000, 12012000] := by
  decide

theorem test_band_dues_late :
    (buildBands { lens4 with latchOffset := 25000 } 12066666).head?.map BandDue.due = some 12093666 := by decide

/-! ### Chapter 2 -/

/-- Nine points with two of them given. -/
def points (i : Nat) (a b : Int) : List Int := ((List.replicate 9 0).set i a).set (i + 1) b

theorem test_bias_exact : biasAt (points 3 (-320) (-160)) 400 = -240 := by decide
theorem test_bias_half_up : biasAt (points 5 (-100) (-95)) 720 = -97 := by decide
theorem test_bias_half_down : biasAt (points 5 100 95) 720 = 97 := by decide
theorem test_bias_clamped : biasAt (points 0 48 16) (-200) = 48 ∧ biasAt (points 7 0 1000) 1300 = 1000 := by decide

/-- Section 2.4's BIAS points and its sample. -/
def calibrated : MotionComputer :=
  { MotionComputer.reset with bias := ⟨points 3 64 96 ++ points 3 0 (-8) ++ points 3 (-320) (-160), none⟩ }

/-- Section 2.4's sample. -/
def sample24 : Sample := { gx := -1200, gy := 32767, gz := 485, ax := 0, ay := 0, az := 0, temp := 400, stamp := 0 }

theorem test_mapped_rates : calibrated.rates sample24 = ⟨8000, -19280, 524276⟩ ∧
    calibrated.saturated sample24 = true := by decide

theorem test_sample_bytes :
    sampleOf [0xFB, 0x50, 0x7F, 0xFF, 0x01, 0xE5, 0, 0, 0, 0, 0, 0, 0x01, 0x90] 0 = sample24 := by decide

/-- Section 2.6's last good sample. -/
def gapAt : GapState := { lastGood := some 7000000, lastRates := ⟨8000, -19280, 0⟩, count := 0 }

theorem test_gap_on_time : gapAt.measure 7001500 1000 = (false, 0) ∧ gapAt.measure 7001600 1000 = (true, 1) := by decide
theorem test_gap_fill : gapAt.measure 7002500 1000 = (true, 2) ∧ gapAt.measure 7012400 1000 = (true, 11) := by decide

/-! ### Chapter 3 -/

/-- Section 3.8's yaw axis. -/
def yaw38 : LensAxis := { shift := 8, margin := 20000, gain := 16755 }

/-- Section 3.8's axis after n steps at rate 8000. -/
def yawAfter : Nat → Integrator
  | 0 => .reset
  | n + 1 => (yawAfter n).step yaw38 8000

theorem test_step_1 : yawAfter 1 = { angle := 8000, path := 31, err := -7969, errPrev := -7969, disp := -8 } := by decide
theorem test_step_2 : (yawAfter 2).path = 93 ∧ (yawAfter 2).disp = -16 := by decide
theorem test_step_3 : yawAfter 3 = { angle := 24000, path := 4000, err := -20000, errPrev := -20000, disp := -20 } ∧
    (yawAfter 2).stepMark yaw38 8000 = true := by decide
theorem test_release : (((yawAfter 4).rebase.step yaw38 0).step yaw38 0) =
    { angle := 0, path := -17579, err := -17579, errPrev := -17579, disp := -18 } := by decide
theorem test_line_up :
    Integrator.lineUp { yaw38 with margin := 12000 }
      { angle := 0, path := -17579, err := -17579, errPrev := -17579, disp := -18 } =
    { angle := 0, path := -12000, err := -12000, errPrev := -12000, disp := -12 } := by decide

/-! ### Chapter 4 -/

/-- Section 4.3's MOTION_CFG. -/
def cfg43 : MotionCfg := { MotionCfg.reset with shockT := 20000, shockRun := 3, rearm := 4 }

/-- The detector of section 4.3 after samples of given accelerations. -/
def shocked : List (Int × Int × Int) → ShockDetector → ShockDetector
  | [], d => d
  | (x, y, z) :: rest, d =>
    shocked rest (d.judge cfg43 (Sample.high { sample24 with ax := x, ay := y, az := z } cfg43))

theorem test_shock_fires : shocked [(0, 0, 4096), (12000, 9000, 14000), (10000, 10000, 10000), (0, 16000, 13000),
    (20000, 0, 0), (12000, 9000, 14000)] .reset = { armed := false, highRun := 0, lowRun := 0, total := 0 } := by decide
theorem test_shock_counts : shocked [(0, 16000, 13000), (20000, 0, 0)] .reset =
    { armed := true, highRun := 2, lowRun := 0, total := 0 } := by decide

/-! ### Chapter 5 -/

/-- Section 5's sequence "filling to the reserve": 30 free pages, recording. -/
def nearlyFull (free : Nat) : State :=
  { quiet with buffer := { ChunkBuffer.reset with free := List.range free },
               clip := { ClipRecorder.reset with state := .recording } }

theorem test_media_accepted : (after (.mediaHeader (head 0x91 60000 0)) (nearlyFull 17)).buffer.free.length = 2 := by
  decide
theorem test_media_refused : (after (.mediaHeader (head 0x31 100 0)) (nearlyFull 1)).buffer.mediaDiscard = 1 := by decide

/-- Section 5's two chunks A and B, READY, before the FLUSH. -/
def chunk (seq len : Nat) : Chunk :=
  { seq := BitVec.ofNat 32 seq, kind := .audio, key := false, hostTime := 0, arrival := some 0, length := len,
    pages := [seq], acked := 0, state := .ready, place := none }

/-- A buffer holding the two chunks. -/
def twoChunks : ChunkBuffer := { ChunkBuffer.reset with free := [0], queue := [chunk 1 1000, chunk 2 300] }

theorem test_pending_blocks : twoChunks.wholeBlocks = 2 ∧ { twoChunks with flush := some 2 }.wholeBlocks = 3 := by decide

/-- A segment being filled in slot 0 of one granule of 16384 blocks. -/
def filling0 : Filling :=
  { slot := 0, placement := 0, front := 0, pending := none, anyPlaced := false, limit := 0, contrib := [16384],
    fillers := [], damagedAt := none }

/-- The two chunks in a clip that records into slot 0. -/
def recording : State :=
  { quiet with buffer := twoChunks, clip := { ClipRecorder.reset with state := .recording, filling := some filling0 } }

theorem test_flush_pads : ((after (.flush (cmd 3)) recording).clip.filling.map Filling.placement) = some 1536 ∧
    fillerByte 204 2 = 188 ∧ fillerByte 204 0 = 5 ∧ fillerByte 14 0 = 0 := by decide

/-! ### Chapter 6 -/

/-- Section 6.10's CLIP_CFG and its window and slots. -/
def state610 : State :=
  { quiet with
    clip := { ClipRecorder.reset with
      cfg := { ClipCfg.reset with areaBase := 65536, allowance := 100, protectLimit := 1 }
      window := 0xFFFF
      slots := (ClipRecorder.reset.slots.set 0 { Slot.reset with state := .free, first := 4, count := 1 }).set 1
        { Slot.reset with state := .closed, first := 5, count := 1, closeSeq := some 40, endTime := some 3000000000 }
      closeCounter := 40 }
    card := { CardController.reset with state := .ready, capacity := 400000, present := true } }

/-- CLIP_START of clip 18 in LOOP. -/
def start18 : Instr := .clipStart (cmd 1 [18, 0, 0, 0, 0])

theorem test_clip_start : (after start18 state610).clip.state = .recording ∧
    (after start18 state610).clip.filling.map Filling.capacity = some 8388608 ∧
    (after start18 state610).clip.filling.map (fun f => f.threshold 100) = some 8337408 ∧
    (after start18 state610).blockAddress 16332 = some 147404 := by decide +kernel

theorem test_seek_oldest : (ClipRecorder.candidate (after start18 state610).clip .loop (some 0)) = some 1 := by decide +kernel

/-! ### Chapter 8 and 9 -/

/-- The zone after battery temperatures in turn (section 8.3). -/
def zones : List Int → Option Zone → Option Zone
  | [], z => z
  | t :: ts, z => zones ts (some (settleZone .reset z t))

theorem test_zone_warm : zones [448, 453, 440] (some .normal) = some .warm ∧
    zones [556, 540] (some .warm) = some .hot := by decide
theorem test_zone_back : zones [529] (some .hot) = some .warm ∧ zones [430] (some .warm) = some .normal := by decide

/-- The gauge of section 9.6's first estimate. -/
def gauge96 : Budget := { Budget.reset with cfg := { BudgetCfg.reset with capacity := 1200 } }

theorem test_estimate : gauge96.estimate 3760 = 194400000 ∧ gauge96.estimate 3761 = 195480000 ∧
    { gauge96 with charge := gauge96.estimate 3760 }.percent = 45 := by decide

/-- The budget of section 9.5's burst: setpoint 900, limit 1500. -/
def burst95 (grant : Grant) (iin : Int) : Budget :=
  { Budget.reset with inputLimit := 1500, setpoint := 900, grant := grant, sinceRise := some 50,
                      readings := { Budget.reset.readings with iin := iin, vin := 5000 } }

theorem test_burst_backs_off : ((burst95 .pending 1420).moveSetpoint .reset 1000).setpoint = 700 ∧
    ((burst95 .none 1420).moveSetpoint .reset 1000).setpoint = 900 := by decide

/-! ### Chapter 10 -/

theorem test_bad_argument :
    (after (.park (cmd 16 [0])) quiet).link.outstanding.map Request.answer = [.ready .badArg []] := by decide
theorem test_snapshot_length : (State.reset.snapshotWith 0).length = 240 := by decide +kernel
theorem test_pin_reset : (after (.motionStart (cmd 7)) { quiet with pins := { Pins.released with reset := true } }) =
    { quiet with pins := { Pins.released with reset := true } } := by decide +kernel

/-! ### Witnesses: states and operands that meet the hypotheses of the statements, clause by clause -/

/-- A frame record. -/
def record : FrameRecord :=
  { number := 1, stamp := 0, bands := 4, entries := [], roll := 0, flags := .clear, shocks := 0 }

/-- The part with a send list, an outstanding list and a notice set of its own. -/
def linked (send : List FrameRecord) (out : List Request) (ns : List NoticeEntry) : State :=
  { State.reset with frame := { FrameBuilder.reset with sendList := send },
                     link := { Link.reset with outstanding := out, notices := ns } }

theorem witness_StepRunsFront : ({ quiet with pending := [.drEdge] } : State).pending = .drEdge :: [] := rfl
theorem witness_IdleStepTicks : quiet.pending = [] ∧ atOrAfter quiet.now quiet.budget.passDue = false ∧
    atOrAfter (State.at quiet 10000).now (State.at quiet 10000).budget.passDue = true := by decide

/-- A clip in slot 1 of section 6.10's table with the queue and the pending close given; slot 0 is FREE. -/
def inSlot1 (x : ClipState) (queue : List Chunk) (f : Filling) : State :=
  { state610 with
    clip := { state610.clip with state := x, filling := some { f with slot := 1 } }
    buffer := { ChunkBuffer.reset with queue := queue } }

/-- A chunk placed at a stream offset. -/
def placedAt (seq len place : Nat) : Chunk := { chunk seq len with state := .placed, place := some place }

/-- A VIDEO keyframe chunk, READY. -/
def keyframe (seq len : Nat) : Chunk := { chunk seq len with kind := .video, key := true }

/-- The filling segment with its first 1016 bytes placed. -/
def filling1016 : Filling := { filling0 with placement := 1016, anyPlaced := true }

theorem witness_ConcludeLeaves : quiet.clip.state = .idle ∧ quiet.budget.grant ≠ .held ∧
    (∀ d ∈ [placedAt 1 1000 0], d.place ≠ none ∧ d.seq ≠ (keyframe 2 300).seq) ∧
    filling1016.placement + (16 + 300) ≤ filling1016.contrib.sum * 512 ∧
    ¬(filling1016.contrib.sum - ClipCfg.reset.allowance) * 512 ≤ filling1016.placement ∧
    (inSlot1 .recording [placedAt 1 1000 0, chunk 2 300] filling1016).clip.state = .recording ∧
    (inSlot1 .rolloverWait [placedAt 1 1000 0, keyframe 2 300] filling1016).clip.state = .rolloverWait ∧
    (keyframe 2 300).kind = .video ∧ (keyframe 2 300).key = true ∧ (keyframe 2 300).place = none ∧
    ((inSlot1 .recording [] { filling1016 with pending := some .rollover }).clip.slot 0).state = .free ∧
    ((inSlot1 .recording [] { filling1016 with pending := some .rollover }).contributions 0).sum ≠ 0 := by
  decide +kernel

/-- A slot beyond the table is EMPTY, so a search need look at the 64 slots only. -/
theorem slot_beyond (c : ClipRecorder) (j : Nat) (h : ¬j < 64) : (c.slot j).state = .empty := by
  simp [ClipRecorder.slot, Vector.getElem?_eq_none (Nat.le_of_not_lt h), Slot.reset]

/-- A slot that is the first FREE one, or the only unprotected CLOSED one with none FREE, is the one a search tries. -/
theorem chosen_of (c : ClipRecorder) (mode : ClipMode) (exclude : Option Nat) (i : Nat)
    (h : i < 64 ∧ some i ≠ exclude ∧ ((c.slot i).state = .free ∧ (∀ j, j < i → (c.slot j).state ≠ .free) ∨
      mode = .loop ∧ (c.slot i).state = .closed ∧ (c.slot i).prot = none ∧ ∀ j, j < 64 → some j ≠ exclude →
        (c.slot j).state ≠ .free ∧ (j ≠ i → (c.slot j).state = .closed → (c.slot j).prot ≠ none))) :
    c.Chosen mode exclude i := by
  obtain ⟨h1, h2, ⟨h3, h4⟩ | ⟨h3, h4, h5, h6⟩⟩ := h
  · exact ⟨h1, h2, .inl ⟨h3, fun j hj _ => h4 j hj⟩⟩
  · refine ⟨h1, h2, .inr ⟨h3, fun j hj hf => ?_, h4, h5, fun j hj hne hc hp => ?_⟩⟩
    · by_cases hb : j < 64
      · exact (h6 j hb hj).1 hf
      · rw [slot_beyond c j hb] at hf; cases hf
    · by_cases hb : j < 64
      · exact absurd hp ((h6 j hb hj).2 hne hc)
      · rw [slot_beyond c j hb] at hc; cases hc

/-- With no slot of the table FREE or CLOSED and unprotected, but the one left out, a search has none to try. -/
theorem noSlot_of (c : ClipRecorder) (mode : ClipMode) (exclude : Option Nat)
    (h : ∀ i, i < 64 → some i ≠ exclude →
      (c.slot i).state ≠ .free ∧ ((c.slot i).state ≠ .closed ∨ (c.slot i).prot ≠ none)) : c.NoSlot mode exclude := by
  intro i hi
  by_cases hb : i < 64
  · exact ⟨(h i hb hi).1, .inr (h i hb hi).2⟩
  · rw [slot_beyond c i hb]; exact ⟨nofun, .inr (.inl nofun)⟩

/-- The clip in slot 1 with slot 0 in a given state and protection, in LOOP. -/
def withSlot0 (x : SlotState) (p : Option Protection) (s : State) : State :=
  { s with clip := { s.clip with
      mode := .loop, slots := s.clip.slots.set 0 { s.clip.slot 0 with state := x, prot := p, closeSeq := some 7 } } }

/-- A clip in slot 1 whose segment has drained behind a close with a cause. -/
def drainedIn1 (cause : CloseCause) : State := inSlot1 .recording [] { filling1016 with pending := some cause }

/-- That clip with no granule in the window: no slot has a usable block. -/
def noWindow (s : State) : State := { s with clip := { s.clip with window := 0 } }

/-- The search's clauses: a CLOSED slot recycled in LOOP, one with no usable block, and none left. -/
theorem witness_ConcludeLeaves_search :
    (withSlot0 .closed none (drainedIn1 .forced)).clip.Chosen .loop (some 1) 0 ∧
    ((withSlot0 .closed none (drainedIn1 .forced)).contributions 0).sum ≠ 0 ∧
    ((noWindow (drainedIn1 .rollover)).contributions 0).sum = 0 ∧ (drainedIn1 .rollover).clip.Chosen .linear (some 1) 0 ∧
    (withSlot0 .closed (some .host) (drainedIn1 .damaged)).clip.NoSlot .loop (some 1) := by
  refine ⟨chosen_of _ _ _ _ ?_, ?_, ?_, chosen_of _ _ _ _ ?_, noSlot_of _ _ _ ?_⟩ <;> decide +kernel

/-- The clauses of a chunk's judgement: one byte past the segment, the emergency limit at its end and a byte before it,
a close at its end, and nothing to do. -/
theorem witness_ConcludeLeaves_judgement :
    (chunk 2 300).place = none ∧ (chunk 2 300).state ≠ .receiving ∧ ¬1333 + (16 + 300) ≤ [(3 : Nat)].sum * 512 ∧
    1220 + (16 + 300) ≤ [(3 : Nat)].sum * 512 ∧ (inSlot1 .closing [] filling1016).buffer.queue = [] ∧
    (inSlot1 .emergency [chunk 2 300] { filling1016 with limit := 1332 }).clip.state = .emergency ∧
    1016 + (16 + (chunk 2 300).length) ≤ 1332 ∧ ¬1016 + (16 + (chunk 2 300).length) ≤ 1331 ∧
    (inSlot1 .closing [{ chunk 2 300 with state := .receiving }] filling1016).buffer.queue ≠ [] := by decide

/-- A drained segment closes with its reason; the clip goes on in the CLOSED slot, or ends for want of one (R91, R94). -/
theorem test_drained_closes :
    (withSlot0 .closed none (drainedIn1 .forced)).conclude.clip.filling.map Filling.slot = some 0 ∧
    ((withSlot0 .closed none (drainedIn1 .forced)).conclude.clip.slot 1).endReason = some .forced ∧
    ((withSlot0 .closed (some .host) (drainedIn1 .forced)).conclude.clip.slot 1).endReason = some .ringFull ∧
    ((withSlot0 .closed (some .host) (drainedIn1 .damaged)).conclude.clip.slot 1).endReason = some .damaged ∧
    ((noWindow (drainedIn1 .rollover)).conclude.clip.slot 0).state = .unusable ∧
    (noWindow (drainedIn1 .rollover)).conclude.clip.state = .idle := by decide +kernel

/-- A chunk that does not fit forces a rollover, or with none placed makes the slot UNUSABLE (R93). -/
theorem test_chunk_too_long :
    (inSlot1 .recording [placedAt 1 1000 0, chunk 2 300] { filling1016 with contrib := [2] }).conclude.clip.filling.map
      (fun f => (f.pending, f.placement)) = some (some .forced, 1024) ∧
    ((inSlot1 .closing [chunk 2 300] { filling0 with contrib := [0] }).conclude.clip.slot 1).state = .unusable ∧
    (inSlot1 .closing [chunk 2 300] { filling0 with contrib := [0] }).conclude.clip.filling.map
      (fun f => (f.slot, f.placement)) = some (0, 316) := by decide +kernel

/-- In EMERGENCY a chunk is placed up to the limit and discarded past it, the rest of its block filled (R100). -/
theorem test_emergency_places :
    (inSlot1 .emergency [placedAt 1 1000 0, chunk 2 300] { filling1016 with limit := 1332 }).conclude.buffer.queue.map
      Chunk.place = [some 0, some 1016] ∧
    (inSlot1 .emergency [placedAt 1 1000 0, chunk 2 300] { filling1016 with limit := 1331 }).conclude.clip.filling.map
      (fun f => (f.placement, f.fillers)) = some (1024, [1016]) := by decide +kernel
theorem witness_ArbiterChooses :
    (linked [record] [] []).pins.reset = false ∧ (linked [record] [] []).frame.sendList = record :: [] ∧
    (linked [] [⟨7, .command, answered .ok⟩] []).link.outstanding = ⟨7, .command, .ready .ok []⟩ :: [] ∧
    (linked [] [⟨7, .command, .awaitStart⟩] [⟨1, .input true 5000⟩]).link.notices = ⟨1, .input true 5000⟩ :: [] ∧
    (linked [] [] []).link.notices = [] := by decide

/-- The part with its lines as given. -/
def lines (reset claim card : Bool) : State := { quiet with pins := { reset := reset, claim := claim, card := card } }

theorem witness_PowerOnConditions : (lines true true false).pins.reset = true ∧ (lines false true true).pins.claim = true ∧
    (lines false false true).pins.card = true := by decide
theorem witness_HostReset : recording.pins.reset = false ∧ recording.listening = true ∧
    (Instr.restart (cmd 17)).wf = true ∧ (cmd 17).payload = [] ∧ recording.clip.filling = some filling0 ∧
    quiet.clip.filling = none := by decide
theorem witness_ClockComparison : atOrAfter (later 5 (2 ^ 39 - 1)) 5 = true ∧ atOrAfter 5 (later 5 1) = false ∧
    atOrAfter 5 (later 5 (2 ^ 39)) = false ∧ validDiff 5 (later 5 (2 ^ 39)) = none := by decide
theorem witness_DrEdge :
    drStart.link.parked = false ∧ drStart.imu.active = true ∧ drStart.capture.dr.edgeSeen = false ∧
    drNearLock.capture.dr.cadence = .lost ∧ drNearLock.capture.dr.lockRun = 2 ∧
    ((State.at drNearLock 5006140).now - drNearLock.capture.dr.last).toNat = 1250 ∧
    3 * (1000 : Nat) ≤ 4 * 750 ∧ 4 * (1250 : Nat) ≤ 5 * 1000 := by decide
/-- A frame with its last band outstanding and due now. -/
def lastBand (send : List FrameRecord) : State :=
  { quiet with frame := { FrameBuilder.reset with record := some record, inFrame := true, sendList := send },
               capture := { CaptureUnit.reset with bands := [⟨3, 0⟩] } }

/-- That frame with motion active. -/
def started (send : List FrameRecord) : State :=
  let s := State.at (lastBand send) 40000
  { s with imu := { s.imu with active := true, state := .idle } }

/-- Two steady FS intervals behind it, and an edge one frame period after the last. -/
def fsNearLock : State :=
  let s := State.at drStart 5033333
  { s with capture := { s.capture with fs := { s.capture.fs with last := 5000000, lockRun := 2, edgeSeen := true } } }

theorem witness_FsEdge : drStart.link.parked = false ∧ drStart.imu.active = true ∧ quiet.imu.active = false ∧
    0 < drStart.motion.lens.newest.bands ∧ drStart.motion.lens.pending = none ∧ drStart.capture.bands = [] ∧
    fsNearLock.capture.fs.edgeSeen = true ∧ fsNearLock.capture.fs.cadence = .lost ∧ fsNearLock.capture.fs.lockRun = 2 ∧
    3 * fsNearLock.motion.lens.active.framePeriod ≤ 4 * (fsNearLock.now - fsNearLock.capture.fs.last).toNat ∧
    (lastBand []).capture.bands ≠ [] ∧ (lastBand []).frame.record = some record ∧
    (lastBand (List.replicate 8 record)).frame.sendList.length = 8 := by decide
/-- The third steady FS interval locks the channel; with bands outstanding the old record leaves marked TRUNCATED. -/
theorem test_fs_edge : (after .fsEdge fsNearLock).capture.fs.cadence = .locked ∧
    (after .fsEdge (started [])).frame.sendList.map (fun r => (r.number, r.flags.truncated, r.entries.length)) =
      [(1, true, 1)] ∧
    (after .fsEdge (started [])).frame.record.map FrameRecord.number = some 2 ∧
    (after .fsEdge (started (List.replicate 8 record))).frame.withheld = 1 := by decide
theorem witness_LossDeadlineExpiry : (drStart.capture.get .dr).deadline = some 5004000 ∧
    atOrAfter (State.at drStart 5004000).now 5004000 = true := by decide

theorem witness_BandExpiryLatches : (lastBand []).capture.bands = ⟨3, 0⟩ :: [] ∧
    (lastBand []).frame.record = some record ∧ atOrAfter (lastBand []).now 0 = true ∧
    (lastBand (List.replicate 8 record)).frame.sendList.length = 8 ∧
    (lastBand (List.replicate 7 record)).frame.sendList.length = 7 := by decide

/-- The port in INIT with a transaction, a settle time and a list of pairs. -/
def port (txn : Option Transaction) (pairs : List (Byte × Byte)) (ms : Nat) (stale : Bool) : State :=
  { quiet with imu := { ImuPort.reset with
      state := .init, txn := txn, stale := stale, settleDue := some 10000
      cfg := { MotionCfg.reset with pairs := pairs, settleMs := ms } } }

theorem witness_InitSequence :
    (port (some (.write 0 1 2)) [(1, 2), (3, 4)] 0 false).imu.cfg.pairs[0 + 1]? = some (3, 4) ∧
    (port (some (.write 0 1 2)) [(1, 2)] 1 false).imu.cfg.pairs[0 + 1]? = none ∧
    (port (some (.write 0 1 2)) [(1, 2)] 100 false).imu.stale = false ∧
    atOrAfter (State.at (port none [] 0 false) 10000).now 10000 = true ∧
    atOrAfter (State.at (port none [] 0 false) 9999).now 10000 = false := by decide
/-- A transaction of a stopped session still running, with a session started since. -/
def restarted (x : Transaction) (pairs : List (Byte × Byte)) : State :=
  let s := port (some x) pairs 0 true
  { s with imu := { s.imu with active := true } }

/-- The bytes of a sample whose x acceleration is 32767. -/
def hardSample : List Byte := [0, 0, 0, 0, 0, 0, 0x7F, 0xFF, 0, 0, 0, 0, 0, 0]

theorem witness_StopAtTransactionEnd : (port (some (.write 0 1 2)) [] 0 true).imu.stale = true ∧
    (port (some (.write 0 1 2)) [] 0 true).imu.active = false ∧
    (port (some (.read 0xA2 5)) [] 0 true).imu.txn = some (.read 0xA2 5) ∧
    (restarted (.read 0xA2 5) [(9, 8)]).imu.stale = true ∧ (restarted (.read 0xA2 5) [(9, 8)]).imu.active = true ∧
    (restarted (.write 0 1 2) [(9, 8)]).imu.cfg.pairs = (9, 8) :: [] ∧
    (restarted (.write 0 1 2) []).imu.settleDue = some 10000 ∧
    atOrAfter (State.at (restarted (.write 0 1 2) []) 9999).now 10000 = false ∧
    atOrAfter (State.at (restarted (.write 0 1 2) []) 10000).now 10000 = true := by decide
/-- The end of the old transaction starts the new session's INIT, or ends it where its settle time is over (R20). -/
theorem test_restart_inits :
    (after (.readComplete hardSample) (restarted (.read 0xA2 5) [(0x89, 8)])).imu.txn = some (.write 0 9 8) ∧
    (after .initWriteDone (State.at (restarted (.write 0 1 2) []) 9999)).imu.state = .init ∧
    (after .initWriteDone (State.at (restarted (.write 0 1 2) []) 10000)).imu.state = .idle := by decide
/-- A frame in progress whose record is finished: marks go to the late flags. -/
def lateFrame : State :=
  { (port (some (.read 0xA2 5)) [] 0 false) with frame := { FrameBuilder.reset with inFrame := true } }

/-- A sample in progress, one high sample firing the detector, with slot 0 FILLING or CLOSED and a protect limit of 1. -/
def shockIn (x : SlotState) : State :=
  let s := port (some (.read 0xA2 5)) [] 0 false
  { s with
    imu := { s.imu with cfg := { s.imu.cfg with shockRun := 1 } }
    clip := { ClipRecorder.reset with
      state := if x = .filling then .recording else .idle
      filling := if x = .filling then some filling0 else none
      cfg := { ClipCfg.reset with protectLimit := 1 }
      slots := ClipRecorder.reset.slots.set 0 { Slot.reset with state := x, endTime := some 0, closeSeq := some 1 } } }

theorem witness_ReadCompleteProcesses : (port (some (.read 0xA2 5)) [] 0 false).imu.txn = some (.read 0xA2 5) ∧
    (port (some (.read 0xA2 5)) [] 0 false).imu.stale = false ∧ (lastBand []).frame.record = some record ∧
    quiet.frame.record = none ∧ quiet.frame.inFrame = false ∧ lateFrame.frame.record = none ∧
    lateFrame.frame.inFrame = true ∧
    ShockDetector.fires .reset { cfg43 with shockRun := 1 }
      (Sample.high { sample24 with ax := 20000 } cfg43) = true ∧
    atOrAfter (0 : Time) (later 0 (1000 * 100)) = false ∧
    (shockIn .filling).clip.filling = some filling0 ∧ ((shockIn .filling).clip.slot 0).state = .filling ∧
    ((shockIn .filling).clip.slot 0).prot = none ∧ (shockIn .filling).clip.protectedCount < 1 ∧
    (∀ i, i < 64 → ((shockIn .filling).clip.slot i).state ≠ .closed) ∧
    (shockIn .closed).clip.filling = none ∧ ((shockIn .closed).clip.slot 0).state = .closed ∧
    (∀ j, j < 64 → j ≠ 0 → ((shockIn .closed).clip.slot j).state ≠ .closed) := by decide
/-- A shock protects the segment being filled, and the newest closed one (R98). -/
theorem test_shock_protects :
    ((after (.readComplete hardSample) (shockIn .filling)).clip.slot 0).prot = some .shock ∧
    ((after (.readComplete hardSample) (shockIn .filling)).clip.slot 0).shocks = 1 ∧
    ((after (.readComplete hardSample) (shockIn .closed)).clip.slot 0).prot = some .shock ∧
    (after (.readComplete hardSample) { (shockIn .closed) with
      clip := { (shockIn .closed).clip with cfg := { ClipCfg.reset with protectLimit := 0 } } }).clip.protectRefused = 1 :=
  by decide
theorem witness_CalibratedRates : (points 3 64 96).length = 9 ∧ biasAt (points 7 5 9) (-160 + 160 * 8) = 9 ∧
    biasAt (points 0 5 9) (-160) = 5 ∧ biasAt (points 7 5 9) 1119 = 9 := by decide
theorem witness_GapMeasure : gapAt.lastGood = some 7000000 ∧ GapState.reset.lastGood = none ∧
    ((7001500 : Time) - 7000000).toNat = 1500 ∧ 2 * (1500 : Nat) ≤ 3 * 1000 ∧ 3 * (1000 : Nat) < 2 * 1501 ∧
    2 ^ 39 ≤ ((6999999 : Time) - 7000000).toNat := by decide
theorem witness_RoundingRules : (0 : Nat) < 160 ∧ 1 ≤ (24 : Nat) ∧ (0 : Int) < 2 ∧ roundHalfAway 5 2 = 3 := by decide
theorem witness_EffectiveShift : effectiveShift yaw38 (-10000) = 8 ∧ effectiveShift yaw38 10001 = 6 ∧
    effectiveShift yaw38 15000 = 6 ∧ effectiveShift yaw38 (-15001) = 4 ∧
    effectiveShift { yaw38 with margin := 0 } 0 = 8 := by decide
theorem witness_IntegratorStep :
    (Integrator.step { yaw38 with margin := 5 } .reset (-6)).err = 5 ∧ (yawAfter 3).err = -20000 ∧
    (Integrator.step { yaw38 with gain := 1048575, margin := 2 ^ 30 } .reset (2 ^ 29)).disp = -32768 ∧
    (Integrator.step yaw38 { Integrator.reset with angle := 2 ^ 46 - 1, path := 2 ^ 46 - 1 } 1).angle = 0 := by decide
theorem witness_DisplacementBound : yawAfter 3 = (yawAfter 2).step yaw38 8000 ∧
    (Integrator.lineUp yaw38 (yawAfter 3)).err.natAbs ≤ yaw38.margin := by decide
theorem witness_ShockDetection : ShockDetector.reset.armed = true ∧
    (ShockDetector.fires { ShockDetector.reset with highRun := 2 } cfg43 true) = true ∧
    cfg43.rearm ≤ (3 : Nat) + 1 ∧ (2 : Nat) + 1 < cfg43.rearm := by decide

/-- An open accumulator with n records. -/
def accumulating (n : Nat) (free : List Nat) : State :=
  { quiet with frame := { FrameBuilder.reset with accOpen := true, acc := List.replicate n record },
               buffer := { ChunkBuffer.reset with free := free } }

/-- A state with every descriptor taken. -/
def queueFull (s : State) : State :=
  { s with buffer := { s.buffer with queue := List.replicate 256 (chunk 9 0) } }

theorem witness_MotionChunkHandedOver : (accumulating 6 [0]).frame.accOpen = true ∧
    (accumulating 6 [0]).frame.acc.length + 1 < ClipCfg.reset.perChunk ∧
    ClipCfg.reset.perChunk ≤ (accumulating 7 [0]).frame.acc.length + 1 ∧ (accumulating 7 [0]).buffer.free ≠ [] ∧
    (accumulating 7 [0]).buffer.queue.length < 256 ∧ (accumulating 7 []).buffer.free = [] ∧
    256 ≤ (queueFull (accumulating 7 [0])).buffer.queue.length := by decide +kernel
/-- A chunk of eight records stands in the page after its header, its payload's first byte a record's. -/
theorem test_motion_chunk :
    ((accumulating 7 [3]).accumulate record).buffer.queue.map Chunk.pages = [[3]] ∧
    ramRead ((accumulating 7 [3]).accumulate record).buffer.ram (4096 * 3 + 16) = (record.bytes).headD 0 ∧
    ((accumulating 7 []).accumulate record).buffer.motionDrop = 1 := by decide +kernel
/-- A chunk of three bytes that is being received. -/
def receivingState : State :=
  { quiet with link := { quiet.link with parser := .storing 3 },
               buffer := { ChunkBuffer.reset with queue := [{ chunk 1 3 with state := .receiving, arrival := none }] } }

theorem witness_MediaHeaderJudged :
    (nearlyFull 17).link.parser = .header ∧ (nearlyFull 17).pins.reset = false ∧ (head 0x91 60000 0).b0.toNat % 16 = 1 ∧
    receivingState.link.parser = .storing 3 ∧ (head 2 0 0).b0.toNat % 16 ≠ 1 ∧ 65520 < (head 1 65521 0).len.toNat ∧
    (head 1 0 0).len = 0 ∧ (nearlyFull 17).clip.state = .recording ∧ quiet.clip.state = .idle ∧
    (16 + (head 0x91 60000 0).len.toNat + 4095) / 4096 + 2 = 17 ∧ (nearlyFull 16).buffer.free.length < 17 ∧
    (nearlyFull 17).buffer.free.length = 17 ∧
    ({ quiet with link := { quiet.link with parked := true } } : State).link.parked = true ∧
    (head 0x91 65520 0).len.toNat ≤ 65520 := by decide

theorem witness_MediaPayloadComplete : receivingState.pins.reset = false ∧
    receivingState.link.parser = .storing [1, 2, (3 : Byte)].length ∧
    (∀ c ∈ receivingState.buffer.queue, c.state = .receiving ∧ c.length = [1, 2, (3 : Byte)].length) ∧
    receivingState.buffer.queue.length = 1 ∧ (∀ c ∈ quiet.buffer.queue, c.state ≠ .receiving) ∧
    ({ quiet with link := { quiet.link with parser := .dropping 3 } } : State).link.parser = .dropping 3 ∧
    quiet.link.parser ≠ .storing 3 ∧ quiet.link.parser ≠ .dropping 3 := by decide
/-- The payload stands after the 16 bytes of the chunk header, and the parser is at the next header. -/
theorem test_media_complete : let t := after (.mediaPayloadComplete [7, 8, 9]) receivingState
    t.link.parser = .header ∧ t.buffer.queue.map Chunk.state = [.ready] ∧ ramRead t.buffer.ram (4096 + 16) = 7 := by
  decide
theorem witness_PayloadReadsBack : ramWf [] = true ∧ [5, 2].Nodup ∧
    8190 + [1, (2 : Byte)].length ≤ 4096 * [5, 2].length ∧
    ramRead (ramStore [5, 2] 4095 [9, 8] []) (pageAddress [5, 2] 4096) = 8 := by decide
theorem witness_LatencyAndMalformed :
    ({ quiet with buffer := { ChunkBuffer.reset with latDeadline := some 0 } } : State).buffer.latDeadline = some 0 ∧
    atOrAfter quiet.now 0 = true ∧ atOrAfter quiet.now 1 = false ∧ (head 0 65520 0).b0.toNat % 16 = 0 ∧
    (head 5 65521 0).len.toNat = 65521 ∧ (head 4 65521 0).b0.toNat % 16 = 4 ∧ quiet.listening = true ∧
    receivingState.listening = false ∧ (head 4 65520 0).len.toNat ≤ 65520 := by decide

theorem witness_executes : quiet.executes (.motionStart (cmd 7)) := by refine ⟨?_, ?_, ?_⟩ <;> decide

/-- Eight requests outstanding. -/
def fullList : State := linked [] (List.replicate 8 ⟨7, .command, .awaitStop⟩) []

theorem witness_RequestsTurnedAway : quiet.executes (.motionStart (cmd 7 [0])) ∧
    (cmd 7 [0]).payload.length ≠ 0 ∧ quiet.executes (.clipStart (cmd 1 [0])) ∧ quiet.executes (.unknownCommand (cmd 18)) ∧
    fullList.listening = true ∧ 8 ≤ fullList.link.outstanding.length ∧ (Instr.motionStart (cmd 7)).wf = true ∧
    (Instr.restart (cmd 17 [0])).wf = true ∧ (cmd 17 [0]).payload ≠ [] ∧ (Instr.clipStop (cmd 2)).wf = true ∧
    (Instr.motionStop (cmd 7)).wf = false ∧ (cmd 7).payload.length = (cmd 7).header.len.toNat ∧
    (lines true false false).listening = false ∧ (lines true false false).pins.reset = true := by
  refine ⟨⟨?_, ?_, ?_⟩, ?_, ⟨?_, ?_, ?_⟩, ⟨?_, ?_, ?_⟩, ?_⟩ <;> decide

/-! The packets of section 10.1, byte by byte: codes select the row. -/

/-- A MOTION_START with tag 7, and after it the first byte of the next packet. -/
theorem test_take_motion_start :
    takePacket [0x02, 7, 0, 0, 7, 0, 0, 0, 0x31] = some (cmd 7, [0x31]) ∧ rowsOf (cmd 7) = [.motionStart (cmd 7)] := by
  decide
/-- A read of LENS from entry 4, nine entries; a load of OCV from entry 1, one entry. -/
theorem test_take_tables :
    (takePacket [0x04, 1, 0, 0, 0x85, 0, 9, 0]).map (fun x => packetRow x.1) =
      some (.tableRead ⟨{ b0 := 4, b1 := 1, len := 0, tail := 0x90085 }, []⟩) ∧
    packetRow (load 9 1 1 [0, 0, 0, 0]) = .ocvLoad (load 9 1 1 [0, 0, 0, 0]) ∧
    packetRow (load 13 1 1 [0, 0, 0, 0]) = .tableLoadOther (load 13 1 1 [0, 0, 0, 0]) := by decide
/-- A keyframe VIDEO packet of two bytes, and a packet of kind 5. -/
theorem test_take_media :
    (takePacket [0x91, 1, 2, 0, 0, 0, 0, 0, 8, 9]).map (fun x => rowsOf x.1) =
      some [.mediaHeader { b0 := 0x91, b1 := 1, len := 2, tail := 0 }, .mediaPayloadComplete [8, 9]] ∧
    takePacket [0x91, 1, 2, 0, 0, 0, 0, 0, 8] = none ∧
    packetRow ⟨head 5 0 0, []⟩ = .malformedPacket (head 5 0 0) := by decide
theorem witness_ClipStartOpens : state610.executes (.clipStart (cmd 1 [18, 0, 0, 0, 1])) ∧ state610.clip.state = .idle ∧
    state610.buffer.queue = [] ∧ state610.card.state = .ready ∧ state610.clip.Chosen .linear none 0 ∧
    (state610.contributions 0).sum ≠ 0 ∧ ((noWindow state610).contributions 0).sum = 0 ∧
    (withSlot0 .empty none state610).clip.Chosen .loop none 1 ∧
    ((withSlot0 .empty none state610).contributions 1).sum ≠ 0 := by
  refine ⟨⟨?_, ?_, ?_⟩, ?_, ?_, ?_, chosen_of _ _ _ _ ?_, ?_, ?_, chosen_of _ _ _ _ ?_, ?_⟩ <;> decide +kernel
/-- In LOOP the CLOSED slot is taken; with no usable block in any slot there is no segment (R90, R91). -/
theorem test_clip_start_recycles :
    (after start18 (withSlot0 .empty none state610)).clip.filling.map Filling.slot = some 1 ∧
    ((after start18 (noWindow state610)).clip.slot 0).state = .unusable ∧
    (after start18 (noWindow state610)).link.outstanding.map Request.answer = [.ready .noSegment []] := by
  decide +kernel
theorem witness_ClipStartRefused : state610.executes (.clipStart (cmd 1 [18, 0, 0, 0, 2])) ∧
    ((cmd 1 [18, 0, 0, 0, 2]).payload.getD 4 0).toNat = 2 ∧ quiet.card.state = .absent ∧
    recording.clip.state ≠ .idle ∧
    ({ quiet with card := { CardController.reset with state := .sleep } } : State).card.state = .sleep ∧
    (∀ i, i < 64 → (quiet.clip.slot i).state ≠ .free ∧ (quiet.clip.slot i).state ≠ .closed) := by
  refine ⟨⟨?_, ?_, ?_⟩, ?_⟩ <;> decide

/-- A clip with nothing queued. -/
def drainedClip : State := { recording with buffer := .reset }

/-- A state with one record in the open accumulator, the next sequence number 3. -/
def withRecords (s : State) : State :=
  { s with frame := { s.frame with accOpen := true, acc := [record] }, buffer := { s.buffer with nextSeq := 3 } }

theorem witness_ClipStop : drainedClip.executes (.clipStop (cmd 2)) ∧ drainedClip.clip.state = .recording ∧
    drainedClip.clip.filling = some filling0 ∧ drainedClip.buffer.queue = [] ∧ drainedClip.frame.acc = [] ∧
    quiet.clip.state = .idle ∧ (withRecords recording).executes (.clipStop (cmd 2)) ∧
    (withRecords recording).frame.accOpen = true ∧ (withRecords recording).frame.acc ≠ [] ∧
    (withRecords recording).buffer.free ≠ [] ∧ (withRecords recording).buffer.flush = none ∧
    (withRecords recording).buffer.queue.length < 256 ∧
    (∀ d ∈ (withRecords recording).buffer.queue, d.seq ≠ (withRecords recording).buffer.nextSeq) ∧
    recording.buffer.queue = [chunk 1 1000] ++ [chunk 2 300] ∧ (chunk 2 300).place = none := by
  refine ⟨⟨?_, ?_, ?_⟩, ?_, ?_, ?_, ?_, ?_, ⟨?_, ?_, ?_⟩, ?_⟩ <;> decide
/-- The record handed over is the last chunk queued, and the flush's mark. -/
theorem test_clip_stop_hands_over :
    (after (.clipStop (cmd 2)) (withRecords recording)).buffer.queue.map Chunk.seq = [1, 2, 3] ∧
    (after (.clipStop (cmd 2)) (withRecords recording)).buffer.flush = some 3 ∧
    (after (.clipStop (cmd 2)) recording).buffer.flush = some 2 := by decide
theorem witness_FlushMarksLast : recording.executes (.flush (cmd 3)) ∧
    recording.buffer.queue = [chunk 1 1000] ++ [chunk 2 300] ∧ recording.buffer.flush = none ∧
    (∀ d ∈ [chunk 1 1000], d.seq ≠ (chunk 2 300).seq) ∧ (chunk 2 300).place = none ∧
    1016 + (16 + (chunk 2 300).length) = 1332 ∧ 1332 % 512 ≠ 0 := by
  refine ⟨⟨?_, ?_, ?_⟩, ?_⟩ <;> decide

/-- Slot 0 in a given state and protection, with a protect limit. -/
def slotIn (x : SlotState) (p : Option Protection) (limit : Nat) : State :=
  { quiet with clip := { ClipRecorder.reset with
      cfg := { ClipCfg.reset with protectLimit := limit }
      slots := ClipRecorder.reset.slots.set 0 { Slot.reset with state := x, prot := p } } }

theorem witness_SegmentCommands : quiet.executes (.segmentFree (cmd 4 [63])) ∧
    quiet.executes (.segmentProtect (cmd 5 [63])) ∧ quiet.executes (.segmentUnprotect (cmd 6 [63])) ∧
    (63 : Byte).toNat ≤ 63 ∧ 63 < (64 : Byte).toNat ∧
    ((slotIn .closed none 0).clip.slot 0).state = .closed ∧ (slotIn .closed none 0).clip.protectedCount = 0 ∧
    (slotIn .closed (some .host) 1).clip.protectedCount = 1 ∧ ((slotIn .filling none 1).clip.slot 0).prot = none ∧
    ((slotIn .free none 1).clip.slot 0).state = .free ∧ (quiet.clip.slot 63).state = .empty := by
  refine ⟨⟨?_, ?_, ?_⟩, ⟨?_, ?_, ?_⟩, ⟨?_, ?_, ?_⟩, ?_⟩ <;> decide
theorem witness_MotionStart : quiet.executes (.motionStart (cmd 7)) ∧ (cmd 7).payload = [] ∧
    quiet.imu.active = false ∧ quiet.imu.txn = none ∧ quiet.imu.cfg.settleMs ≤ 100 ∧
    (port none [(1, 2)] 100 false).imu.cfg.pairs = (1, 2) :: [] ∧ (port none [] 1 false).imu.cfg.settleMs = 1 ∧
    (port none [] 0 false).imu.cfg.settleMs = 0 ∧ drStart.executes (.motionStart (cmd 7)) ∧ drStart.imu.active = true ∧
    (port (some (.read 0xA2 5)) [] 7 true).executes (.motionStart (cmd 7)) ∧
    (port (some (.read 0xA2 5)) [] 7 true).imu.active = false := by
  refine ⟨⟨?_, ?_, ?_⟩, ?_, ?_, ?_, ?_, ?_, ?_, ?_, ⟨?_, ?_, ?_⟩, ?_, ⟨?_, ?_, ?_⟩, ?_⟩ <;> decide
/-- A session started over a running transaction leaves it running, its settle time counted from the start (R16, R20). -/
theorem test_start_over : (after (.motionStart (cmd 7)) (port (some (.read 0xA2 5)) [] 7 true)).imu =
    { (port (some (.read 0xA2 5)) [] 7 true).imu with active := true, settleDue := some 7000 } := by decide
theorem witness_MotionStop : recording.executes (.motionStop (cmd 8)) ∧ (cmd 8).payload = [] ∧
    recording.clip.state ≠ .idle ∧ quiet.executes (.motionStop (cmd 8)) ∧ quiet.clip.state = .idle ∧
    quiet.imu.active = false ∧ drStart.executes (.motionStop (cmd 8)) ∧ drStart.imu.active = true ∧
    drStart.clip.state = .idle ∧ drStart.motion.lens.pending = none := by
  refine ⟨⟨?_, ?_, ?_⟩, ?_, ?_, ⟨?_, ?_, ?_⟩, ?_, ?_, ⟨?_, ?_, ?_⟩, ?_⟩ <;> decide

/-- The charger in a stage with the input present. -/
def charging (stage resume : Stage) (causes : HoldCauses) : State :=
  { quiet with charge := { ChargeController.reset with
                 stage := stage, resume := resume, causes := causes, zone := some .normal },
               budget := { Budget.reset with inputPresent := true } }

theorem witness_ChargeCommands : (charging .taper .qualify .clear).executes (.chargeInhibit (cmd 9)) ∧
    (charging .taper .qualify .clear).executes (.chargeAllow (cmd 10)) ∧
    (charging .taper .qualify .clear).executes (.chargeClear (cmd 11)) ∧
    (charging .taper .qualify .clear).charge.causes.profile = false ∧
    (charging .hold .fast { HoldCauses.clear with inhibit := true }).charge.causes.overVoltage = false ∧
    (charging .hold .fast { HoldCauses.clear with temp := true }).charge.causes.temp = true ∧
    (charging .hold .fast .clear).charge.resume ≠ .fault ∧ (charging .fault .qualify .clear).charge.stage = .fault := by
  refine ⟨⟨?_, ?_, ?_⟩, ⟨?_, ?_, ?_⟩, ⟨?_, ?_, ?_⟩, ?_⟩ <;> decide
/-- CHARGE_ALLOW in HOLD: another cause keeps it there, none lets it resume (R137). -/
theorem test_charge_allow :
    let allowed := fun (causes : HoldCauses) => (after (.chargeAllow (cmd 10)) (charging .hold .fast causes)).charge.stage
    allowed { HoldCauses.clear with inhibit := true, temp := true } = .hold ∧
    allowed { HoldCauses.clear with inhibit := true } = .fast := by
  decide
theorem witness_PlainCommands : quiet.executes (.inputLimit (cmd 12 [99, 0])) ∧ (cmd 12 [99, 0]).payload = [99, 0] ∧
    quiet.executes (.logClear (cmd 14)) ∧ (charging .fast .fast .clear).executes (.status (cmd 15)) ∧
    (cmd 15).payload = [] ∧ (charging .fast .fast .clear).charge.zone = some .normal := by
  refine ⟨⟨?_, ?_, ?_⟩, ?_, ⟨?_, ?_, ?_⟩, ⟨?_, ?_, ?_⟩, ?_⟩ <;> decide

/-- The card in a state, its bus free. -/
def cardIn (x : CardState) : State := { quiet with card := { CardController.reset with state := x } }

theorem witness_CardRetryAndPark : (cardIn .fault).executes (.cardRetry (cmd 13)) ∧
    (cardIn .ready).executes (.park (cmd 16)) ∧ (cmd 13).payload = [] ∧ (cardIn .fault).card.state = .fault ∧
    quiet.card.state = .absent ∧ (cardIn .ready).card.bus = none ∧ (cardIn .ready).clip.state = .idle ∧
    (cardIn .ready).imu.active = false ∧ (cardIn .sleep).card.state ≠ .ready ∧ recording.clip.state ≠ .idle := by
  refine ⟨⟨?_, ?_, ?_⟩, ⟨?_, ?_, ?_⟩, ?_⟩ <;> decide
/-- A LENS load of the band count alone, −1. -/
def bandsMinus : Packet := load 5 1 1 [0xFF, 0xFF, 0xFF, 0xFF]

theorem witness_MotionTables : quiet.executes (.biasLoad (load 3 26 1 [0, 0, 0, 0])) ∧
    quiet.executes (.lensLoad (load 5 0 13 (List.replicate 52 0))) ∧
    quiet.executes (.mountLoad (load 4 0 3 [2, 1, 0, 0, 1, 1])) ∧
    (load 3 26 1 [0, 0, 0, 0]).header.firstEntry = 26 ∧
    (load 3 26 1 [0, 0, 0, 0]).header.entryCount = 1 ∧ quiet.motion.bias.newest.length = 27 ∧
    (load 5 0 13 (List.replicate 52 0)).payload.length = 4 * 13 ∧ quiet.executes (.lensLoad bandsMinus) ∧
    quiet.executes (.mountLoad (load 4 2 1 [2, 1])) ∧ quiet.executes (.mountLoad (load 4 2 1 [1, 1])) ∧
    (load 4 0 3 [2, 1, 0, 0, 1, 1]).payload.length = 2 * 3 ∧ (2 : Byte).toNat ≤ 2 ∧ (1 : Byte).toNat ≤ 1 := by
  refine ⟨⟨?_, ?_, ?_⟩, ⟨?_, ?_, ?_⟩, ⟨?_, ?_, ?_⟩, ?_, ?_, ?_, ?_, ⟨?_, ?_, ?_⟩, ⟨?_, ?_, ?_⟩, ⟨?_, ?_, ?_⟩, ?_⟩ <;> decide
/-- A part of a table loaded stands over the rest: a band count of −1 is 1; a mount axis is checked with the others. -/
theorem test_part_loads :
    (after (.lensLoad bandsMinus) quiet).motion.lens.newest = { quiet.motion.lens.newest with bands := 1 } ∧
    (after (.mountLoad (load 4 2 1 [1, 1])) quiet).motion.mount.newest =
      { quiet.motion.mount.newest with roll := ⟨1, true⟩ } ∧
    (after (.mountLoad (load 4 2 1 [2, 1])) quiet).link.outstanding.map Request.answer = [.ready .badArg []] ∧
    (after (.clipCfgLoad (load 7 3 1 [40, 0, 0, 0])) quiet).clip.cfg = { quiet.clip.cfg with protectLimit := 32 } := by
  decide
theorem witness_SensorAndClipTables : quiet.executes (.motionCfgLoad (load 6 0 24 (List.replicate 96 0))) ∧
    quiet.executes (.windowLoad (load 1 1023 1 [0, 0, 0, 0])) ∧
    quiet.executes (.clipCfgLoad (load 7 0 11 (List.replicate 44 0))) ∧
    (load 6 0 24 (List.replicate 96 0)).header.entryCount = 24 ∧
    (load 6 0 8 (List.replicate 32 0)).header.entryCount = 8 ∧ (8 : Int) = 8 + 0 ∧ (24 : Int) = 8 + 16 ∧
    (load 1 1023 1 [0, 0, 0, 0]).header.firstEntry + 1 = 1024 ∧
    (load 7 0 11 (List.replicate 44 0)).payload.length = 44 ∧ (quiet.clip.protectedCount : Int) ≤ clampInt 0 32 0 ∧
    clampInt 0 32 0 < ((slotIn .closed (some .host) 1).clip.protectedCount : Int) ∧
    quiet.executes (.clipCfgLoad (load 7 10 1 [0, 0, 0, 0])) := by
  refine ⟨⟨?_, ?_, ?_⟩, ⟨?_, ?_, ?_⟩, ⟨?_, ?_, ?_⟩, ?_, ?_, ?_, ?_, ?_, ?_, ?_, ?_, ?_, ?_⟩ <;> decide
theorem witness_SegmentLoad : state610.executes (.segmentLoad (load 2 0 1 [63, 0, 4, 0, 1, 0])) ∧
    (load 2 0 1 [63, 0, 4, 0, 1, 0]).header.entryCount = 1 ∧
    (state610.clip.slot 63).state = .empty ∧ (state610.clip.slot 1).state = .closed ∧
    state610.granuleWritable 15 = true ∧ state610.granuleWritable 16 = false ∧
    (state610.clip.slot 1).first < 5 + 1 := by
  refine ⟨⟨?_, ?_, ?_⟩, ?_⟩ <;> decide +kernel
theorem witness_PowerTables : quiet.executes (.chargeProfileLoad (load 8 22 1 [0x4C, 0x04, 0, 0])) ∧
    quiet.executes (.ocvLoad (load 9 0 1 [0, 0, 0, 0])) ∧ quiet.executes (.budgetCfgLoad (load 10 8 1 [0, 0, 0, 0])) ∧
    (load 8 22 1 [0x4C, 0x04, 0, 0]).header.firstEntry + 1 = 23 ∧
    ChargeProfile.reset.ordered = true ∧ quiet.budget.ocv.length = 11 ∧
    BudgetCfg.reset.absentMv < BudgetCfg.reset.presentMv ∧ BudgetCfg.reset.closeReserve < BudgetCfg.reset.capacity ∧
    risesStrictly quiet.budget.ocv = true := by
  refine ⟨⟨?_, ?_, ?_⟩, ⟨?_, ?_, ?_⟩, ⟨?_, ?_, ?_⟩, ?_⟩ <;> decide
theorem witness_LoadsRefusedAndReads : quiet.executes (.tableLoadOther (load 11 0 1 [0, 0, 0, 0])) ∧
    quiet.executes (.biasLoad (load 3 27 1 [0, 0, 0, 0])) ∧ quiet.executes (.segmentLoad (load 2 0 0 [])) ∧
    quiet.executes (.motionCfgLoad (load 6 0 9 (List.replicate 36 0))) ∧ quiet.executes (.tableRead (read 14 0 0)) ∧
    (load 3 27 1 [0, 0, 0, 0]).header.firstEntry + 1 = 28 ∧
    (load 3 0 0 []).header.entryCount = 0 ∧ (read 14 0 0).header.tableCode = 14 ∧ (read 3 26 0).header.firstEntry < 27 ∧
    27 ≤ (read 3 27 0).header.firstEntry ∧ (read 13 0 1).header.tableCode = 13 := by
  refine ⟨⟨?_, ?_, ?_⟩, ⟨?_, ?_, ?_⟩, ⟨?_, ?_, ?_⟩, ⟨?_, ?_, ?_⟩, ⟨?_, ?_, ?_⟩, ?_⟩ <;> decide

/-- A card with an operation in flight whose answer is due by 100. -/
def waiting (x : CardState) (op : CardOp) (run : Option Run) (ident : Option Identification) (recovery : Nat) : State :=
  { recording with card := { CardController.reset with
      state := x, bus := some ⟨op, 100⟩, run := run, ident := ident, recovery := recovery, capacity := 400000
      present := true } }

/-- The second try of an INIT whose IDENTIFY has been answered. -/
def try2 : Identification := { origin := .insertion, attempt := 2, capacity := some 9 }

/-- A run in slot 0 at its last block. -/
def lastBlock (after : AfterClose) : Run :=
  { slot := 0, first := 0, addr := 0, count := 1, acked := 0, attempts := 2, after := after, awaitHold := false }

/-- The segment being filled with three blocks placed. -/
def filling1536 : Filling := { filling0 with placement := 1536, anyPlaced := true }

/-- A card in a state with the grant held for the two chunks' blocks, placed and flushed. -/
def granted (x : CardState) : State :=
  { recording with
    buffer := { twoChunks with queue := [placedAt 1 1000 0, placedAt 2 300 1016], flush := some 2 }
    clip := { recording.clip with filling := some filling1536 }
    card := { CardController.reset with state := x, present := true, capacity := 400000 }
    budget := { Budget.reset with grant := .held } }

theorem witness_ClaimAndInsertion : quiet.pins.claim = false ∧ quiet.runGranted = false ∧
    (granted .sleep).runGranted = true ∧ (granted .sleep).card.state = .sleep ∧ (granted .ready).runGranted = true ∧
    (granted .ready).clip.filling = some filling1536 ∧ (granted .ready).blockAddress 0 = some 0 ∧
    1 ≤ (granted .ready).runLength filling1536 ∧ (lines false true false).pins.claim = true ∧
    (cardIn .yielded).card.state = .yielded ∧ (cardIn .yielded).card.present = false ∧
    (lines false false true).pins.card = true ∧ atOrAfter (State.at quiet 100000).now 100000 = true ∧
    atOrAfter (State.at quiet 99999).now 100000 = false := by decide
/-- A CLAIM on a grant given and not yet entered on is one in RUN (R106, R150). -/
theorem test_claim_granted :
    (after .claimAssert (granted .sleep)).link.notices.map NoticeEntry.notice = [.cardTaken .run 0] ∧
    (after .claimAssert (cardIn .sleep)).link.notices.map NoticeEntry.notice = [.cardTaken .sleep 0] := by decide
/-- Block 0 of the segment written by chunk 1, everything else in order for it. -/
def writing : State :=
  let s := waiting .run (.busy 0) (some (lastBlock .leave)) none 0
  { s with buffer := { twoChunks with queue := [{ chunk 1 496 with state := .placed, place := some 0 }] },
           clip := { s.clip with filling := some { filling0 with placement := 512, anyPlaced := true } } }

theorem witness_CardRemoval : (waiting .run .closeRun none none 0).pins.card = false ∧
    (waiting .run .closeRun none none 0).card.present = true ∧
    (waiting .run .closeRun none none 0).clip.filling = some filling0 ∧ atOrAfter quiet.now 0 = true ∧
    (granted .ready).runGranted = true ∧ writing.card.run = some (lastBlock .leave) ∧
    (∀ c, writing.card.bus = some c → c.op ≠ .closeRun) ∧ (lastBlock .leave).acked < (lastBlock .leave).count := by
  refine ⟨?_, ?_, ?_, ?_, ?_, ?_, ?_, ?_⟩
  case refine_7 => intro c h; cases h; decide
  all_goals decide
/-- The entry logged at a removal in a run names the block in hand and the FILLING slot (R116). -/
theorem test_removal_logged :
    (after .cardRemoval { writing with card := { writing.card with settleDue := some 0 } }).card.log.map
      (fun e => (e.kind, e.addr, e.slot)) = [(.cardRemoved, 0, some 0)] := by decide
theorem witness_IdentificationAnswers : (waiting .init .status none (some try2) 0).card.ident = some try2 ∧
    (waiting .init .status none (some try2) 0).card.bus = some ⟨.status, 100⟩ ∧ atOrAfter 100 (100 : Time) = true ∧
    atOrAfter 100 (101 : Time) = false ∧ try2.attempt < 3 ∧ 3 ≤ ({ try2 with attempt := 3 } : Identification).attempt ∧
    try2.capacity = some 9 := by decide
/-- No clip open, and a card operation in flight. -/
def unclipped (x : CardState) (op : CardOp) (ident : Option Identification) : State :=
  { quiet with card := (waiting x op none ident 0).card }

/-- A grant held with no clip open. -/
def released (x : CardState) : State := { quiet with card := (granted x).card, budget := (granted x).budget }

theorem witness_CardEntersRun : locate [16384] 16383 = some (0, 16383, 1) ∧
    ({ recording with budget := { Budget.reset with grant := .held } } : State).budget.grant = .held ∧
    ({ twoChunks with flush := some 2 }.pendingBytes / 512) = 3 ∧
    (waiting .run .wake none none 0).card.ident = none ∧
    (waiting .ready .sleep none none 0).card.bus = some ⟨.sleep, 100⟩ ∧
    1 ≤ min (min (1536 / 512) (filling1536.placement / 512 - filling1536.front)) (min 16384 2048) ∧
    (granted .ready).card.bus = none ∧ (granted .sleep).card.state = .sleep ∧
    (unclipped .run .wake none).clip.filling = none ∧ (unclipped .run .wake none).card.ident = none ∧
    (unclipped .init .wake (some try2)).card.ident ≠ none ∧ (unclipped .ready .sleep none).card.bus = some ⟨.sleep, 100⟩ ∧
    (released .ready).clip.filling = none ∧ (released .ready).budget.grant = .held := by decide
/-- With no clip open: PARK's SLEEP, an identification's WAKE, a grant with nothing to write (R105, R106, R107). -/
theorem test_card_without_clip :
    (after .sleepAck (unclipped .ready .sleep none)).card.state = .sleep ∧
    (after .wakeAck (unclipped .init .wake (some try2))).card.bus.map CardCommand.op = some .identify ∧
    (after .enterRun (released .ready)).budget.grant = .none := by decide

theorem witness_RunBlocks : writing.card.run = some (lastBlock .leave) ∧ writing.card.bus = some ⟨.busy 0, 100⟩ ∧
    atOrAfter 100 writing.now = true ∧ writing.clip.state = .recording ∧ (lastBlock .leave).count ≤ 0 + 1 ∧
    (∀ c ∈ writing.buffer.queue, c.place = none → c.state = .receiving) := by decide
/-- A run of slot 1's first granule at its block `acked` of 3, two chunks placed in three blocks, the clip in any state. -/
def midRun (x : ClipState) (acked : Nat) (op : CardOp) (after : AfterClose) : State :=
  let s := inSlot1 x [placedAt 1 1000 0, placedAt 2 300 1016] { filling1536 with front := acked }
  { s with card := { s.card with
      state := .run, bus := some ⟨op, 100⟩
      run := some { slot := 1, first := 0, addr := 65536 + 5 * 16384, count := 3, acked := acked, attempts := 0,
                    after := after, awaitHold := false } } }

/-- Blocks that go on: below the writable end in a granule of window, card and extent, in other clip states. -/
theorem witness_RunBlocks_next :
    (midRun .closing 1 (.busy 0) .leave).clip.state = .closing ∧ 1 + 1 < (3 : Nat) ∧
    (midRun .closing 1 (.busy 0) .leave).clip.filling.map Filling.slot = some 1 ∧
    0 + (1 + 1) < filling1536.placement / 512 ∧ (midRun .closing 1 (.busy 0) .leave).clip.window.getLsbD 5 = true ∧
    65536 + (5 + 1) * 16384 ≤ (midRun .closing 1 (.busy 0) .leave).card.capacity.toNat ∧
    ((midRun .closing 1 (.busy 0) .leave).clip.slot 1).first = 5 ∧
    ((midRun .closing 1 (.busy 0) .leave).clip.slot 1).count = 1 ∧ ¬2 + 1 < (3 : Nat) ∧
    (unclipped .run (.busy 0) none).clip.filling = none := by decide +kernel
/-- The next block is sent after DONE, in whatever clip state; a run with none left is closed (R108, R109). -/
theorem test_next_block :
    (after (.busyEnd true) (midRun .closing 0 (.busy 0) .leave)).card.bus.map
      (fun c => match c.op with | .block a _ => a | _ => 0) = some 147457 ∧
    (after (.busyEnd true) (midRun .emergency 1 (.busy 0) .leave)).card.run.map Run.acked = some 2 ∧
    (after (.busyEnd true) (noWindow (midRun .closing 0 (.busy 0) .leave))).card.bus.map CardCommand.op =
      some .closeRun := by decide +kernel
theorem test_block_done : (after (.busyEnd true) writing).buffer.written = 1 ∧
    (after (.busyEnd true) writing).card.corrected = 1 ∧ ((after (.busyEnd true) writing).clip.slot 0).streamLen = 512 ∧
    (after (.busyEnd true) writing).card.bus.map CardCommand.op = some .closeRun := by decide
theorem witness_RunFailures :
    (waiting .run (.block 0 []) (some (lastBlock .leave)) none 0).card.bus = some ⟨.block 0 [], 100⟩ ∧
    (waiting .run .closeRun (some (lastBlock .giveUp)) none 0).card.run = some (lastBlock .giveUp) ∧
    (lastBlock .retry).after = .retry ∧ 3 ≤ (lastBlock .leave).attempts + 1 ∧
    (waiting .run .closeRun (some (lastBlock .giveUp)) none 0).clip.filling.map Filling.slot = some (lastBlock .giveUp).slot ∧
    ({ CardController.reset with shockHold := some 0 } : CardController).shockHold = some 0 := by decide
/-- That run given up at block 2, in a segment of the granules given with n skips recorded and m granules in the bad
list; the first chunk is on the card. -/
def givenUp (x : ClipState) (contrib : List Nat) (skips bad : Nat) : State :=
  let s := midRun x 2 .closeRun .giveUp
  { s with
    buffer := { s.buffer with queue := [placedAt 2 300 1016] }
    clip := { s.clip with
      filling := s.clip.filling.map (fun f => { f with contrib := contrib })
      slots := s.clip.slots.set 1 { s.clip.slot 1 with skips := List.replicate skips (9, 0) } }
    card := { s.card with badList := List.replicate bad { granule := 9, addr := 0, slot := 0, time := 0 } } }

/-- The skip report's clauses at their boundaries: recorded with 3 skips and 31 granules, not with 4 or 32; a chunk that
ends within the new capacity, past it, and past the blocks acknowledged. -/
theorem witness_RunFailures_skip :
    ((givenUp .recording [16384] 3 31).clip.slot 1).skips.length < 4 ∧
    ¬((givenUp .recording [16384] 4 31).clip.slot 1).skips.length < 4 ∧
    (givenUp .recording [16384] 3 31).card.badList.length < 32 ∧
    ¬(givenUp .recording [16384] 3 32).card.badList.length < 32 ∧
    (∀ e ∈ (givenUp .recording [16384] 3 32).card.badList, e.granule ≠ 5) ∧
    (147458 - 65536) / 16384 = 5 ∧ (147458 - 65536) % 16384 = 2 ∧
    1016 + (16 + (placedAt 2 300 1016).length) ≤ ([16384, 16384].set 0 2).sum * 512 ∧
    ([16384].set 0 2).sum * 512 < 1016 + (16 + (placedAt 2 300 1016).length) ∧
    512 * 2 < 1016 + (16 + (placedAt 2 300 1016).length) ∧
    (givenUp .emergency [16384] 3 31).clip.state = .emergency ∧
    ({ quiet with card := { CardController.reset with shockHold := some 0 } } : State).card.run = none := by
  decide +kernel
/-- A recorded skip cuts the contribution and filling goes on; a chunk past the cut damages the segment, and so does a
skip not recorded: it closes DAMAGED at the chunk's offset, which goes to the next slot, or is discarded in EMERGENCY
(R97, R100). -/
theorem test_skip_reported :
    (after .closeRunAck (givenUp .recording [16384, 16384] 3 31)).clip.filling.map (fun f => (f.contrib, f.pending)) =
      some ([2, 16384], none) ∧
    (let t := after .closeRunAck (givenUp .recording [16384] 3 31)
     (t.clip.slot 1).endReason = some .damaged ∧ (t.clip.slot 1).streamLen = 1016 ∧ (t.clip.slot 1).skips.length = 4 ∧
     t.clip.filling.map Filling.slot = some 0 ∧ t.buffer.queue.map Chunk.place = [some 0]) ∧
    (let t := after .closeRunAck (givenUp .recording [16384, 16384] 4 31)
     (t.clip.slot 1).endReason = some .damaged ∧ (t.clip.slot 1).skips.length = 4) ∧
    (after .closeRunAck (givenUp .emergency [16384] 3 31)).buffer.queue = [] ∧
    ((after .closeRunAck (givenUp .emergency [16384] 3 31)).clip.slot 1).endReason = some .damaged := by decide +kernel
/-- A shock hold ends with no run as well (R120). -/
theorem test_hold_ends :
    (after .shockHoldExpiry { quiet with card := { CardController.reset with shockHold := some 0 } }).card.shockHold =
      none := by decide
theorem test_block_failed : (after .closeRunAck (waiting .run .closeRun (some (lastBlock .giveUp)) none 0)).card.badList =
    [{ granule := 0, addr := 0, slot := 0, time := 0 }] := by decide
theorem witness_CardTimeouts : atOrAfter (State.at (waiting .run .closeRun none none 0) 100).now 100 = true ∧
    (waiting .run .closeRun (some (lastBlock .retry)) none 1).card.recovery < 2 ∧
    2 ≤ (waiting .run .closeRun none none 2).card.recovery ∧ (lastBlock .retry).after ≠ .giveUp := by decide
/-- The stage decision from a stage with its counts, at a cell voltage and current, the setpoint in force 200. -/
def stageAt (stage : Stage) (run elapsed : Nat) (vbat ibat : Int) : State :=
  let s := charging stage .qualify .clear
  State.decideStage { s with
    charge := { s.charge with runCount := run, elapsed := elapsed }
    budget := { s.budget with inForce := 200, readings := { s.budget.readings with vbat := vbat, ibat := ibat } } }

theorem witness_QualifyAndFastTests : (charging .qualify .qualify .clear).budget.inputPresent = true ∧
    quiet.budget.inputPresent = false ∧ (charging .qualify .qualify .clear).charge.causes.any = false ∧
    (charging .taper .qualify { HoldCauses.clear with temp := true }).charge.causes.any = true ∧
    (48 : Nat) + 1 < 50 ∧ 50 ≤ (49 : Nat) + 1 ∧ (30 : Int) * 6000 ≤ 179999 + 1 ∧
    ChargeProfile.reset.zoneVoltage (charging .fast .fast .clear).charge.zone = some 4200 ∧
    ((charging .fast .fast .clear).charge.safety + 0 : Int) < ChargeProfile.reset.safetyLimit ∧
    ChargeProfile.reset.safetyLimit ≤ (720000000 : Int) ∧
    ChargeController.reset.zone ≠ some (settleZone .reset none 250) := by decide
/-- The tests of the stages at their last count (sections 8.5 and 8.6). -/
theorem test_stage_tests :
    (stageAt .precharge 9 0 2999 0).charge.runCount = 0 ∧ (stageAt .precharge 9 0 3000 0).charge.stage = .fast ∧
    (stageAt .precharge 0 179999 2999 0).charge.fault = some .timer ∧
    (stageAt .fast 9 0 4180 0).charge.stage = .taper ∧ (stageAt .fast 9 0 4179 0).charge.runCount = 0 ∧
    (stageAt .taper 19 0 4100 100).charge.stage = .topOff ∧ (stageAt .topOff 0 119999 4100 0).charge.stage = .full ∧
    (stageAt .full 0 0 4099 0).charge.stage = .fast ∧ (stageAt .full 0 0 4100 0).charge.stage = .full := by
  decide
/-- The charger in FAST at its ceiling of 500, with a grant pending. -/
def fastAt500 : State :=
  let s := charging .fast .fast .clear
  { s with charge := { s.charge with ceiling := 500 }, budget := { s.budget with setpoint := 500, grant := .pending } }

/-- Conversions that read one voltage, input voltage and input current, at 25 °C. -/
def convs (vbat vin iin : Int) : Conversions :=
  let q := fun v : Int => ({ c0 := v, c1 := v, c2 := v, c3 := v } : Quad)
  { vbat := q vbat, ibat := q 0, vin := q vin, iin := q iin, tbat := q 250, tdie := q 250 }

/-- A state in which the pass ends now. -/
def due (s : State) : State := { s with budget := { s.budget with passDue := s.now } }

theorem witness_MonitorUpdate : (due quiet).SetpointBounded ∧ (due fastAt500).SetpointBounded ∧
    atOrAfter (due quiet).now (due quiet).budget.passDue = true ∧ atOrAfter quiet.now quiet.budget.passDue = false ∧
    quiet.budget.estimateDue = true ∧ quiet.budget.ocv.length = 11 ∧ quiet.budget.ocv.Pairwise (· < ·) ∧
    quiet.budget.ocv.getD 4 0 ≤ 3760 ∧ 3760 < quiet.budget.ocv.getD (4 + 1) 0 := by
  refine ⟨?_, ?_, ?_⟩
  case refine_3 => decide
  all_goals (unfold State.SetpointBounded ChargeProfile.NonNegative; decide)
/-- An update sent before the pass has ended has no effect; one at its time is the first, and the next is due 10 ms on. -/
theorem test_update_due : after (.monitorUpdate (convs 3800 5000 0)) (State.at quiet 9999) = State.at quiet 9999 ∧
    (after (.monitorUpdate (convs 3760 5000 0)) (State.at quiet 10000)).budget.passDue = 20000 ∧
    (after (.monitorUpdate (convs 3760 5000 0)) (State.at quiet 10000)).budget.charge = 162000000 := by decide +kernel
theorem test_update_backs_off : (after (.monitorUpdate (convs 3800 5000 600)) (due fastAt500)).budget.setpoint = 300 ∧
    (after (.monitorUpdate (convs 3800 5000 600)) (due fastAt500)).budget.grant = .pending ∧
    (after (.monitorUpdate (convs 3800 5000 200)) (due fastAt500)).budget.grant = .held := by decide
theorem test_update_low :
    (after (.monitorUpdate (convs 3300 3999 0))
      (due { drainedClip with budget := { Budget.reset with lowRun := 4 } })).budget.orderPending = true := by decide

/-- An order waits for the clip that records. -/
def ordered (s : State) : State := { s with budget := { s.budget with orderPending := true } }

/-- A chunk whose placement has been withdrawn. -/
def withdrawnChunk : Chunk := { chunk 3 100 with state := .placed }

/-- A clip with a close pending, an emergency budget of two blocks, a chunk that ends within them, one past them and
one withdrawn. -/
def pastLimit (cause : Option CloseCause) : State :=
  { ordered recording with
    buffer := { twoChunks with queue := [placedAt 1 1000 0, placedAt 2 300 1016, withdrawnChunk] }
    clip := { recording.clip with
      cfg := { ClipCfg.reset with emergencyBudget := 2 }
      filling := some { filling1536 with pending := cause } } }

/-- That clip without the chunk past the limit. -/
def withdrawn (cause : Option CloseCause) : State :=
  let s := pastLimit cause
  { s with buffer := { s.buffer with queue := [placedAt 1 1000 0, withdrawnChunk] } }

theorem witness_EmergencyClose : (ordered drainedClip).budget.orderPending = true ∧
    (ordered drainedClip).clip.state ≠ .idle ∧ (ordered drainedClip).clip.filling = some filling0 ∧
    (ordered drainedClip).buffer.queue = [] ∧ (ordered quiet).clip.state = .idle ∧
    (∀ c ∈ writing.buffer.queue, c.place ≠ none) ∧ quiet.budget.orderPending = false ∧
    (pastLimit none).clip.filling.map Filling.pending = some none ∧
    (pastLimit (some .damaged)).clip.filling.map Filling.pending = some (some .damaged) ∧
    (pastLimit none).buffer.queue = [placedAt 1 1000 0] ++ placedAt 2 300 1016 :: [withdrawnChunk] ∧
    min ((0 + 2) * 512) ([16384].sum * 512) < 1016 + (16 + (placedAt 2 300 1016).length) ∧
    ¬min ((0 + 2) * 512) ([16384].sum * 512) < 0 + (16 + (placedAt 1 1000 0).length) ∧
    (pastLimit none).frame.accOpen = false := by decide
/-- Chunks past the limit go; a withdrawn one goes with a DAMAGED close only, all after it with it (R100). -/
theorem test_emergency_discards :
    (pastLimit none).boundEmergency.buffer.queue.map Chunk.seq = [1] ∧
    (withdrawn (some .rollover)).boundEmergency.buffer.queue.map Chunk.seq = [1, 3] ∧
    (withdrawn (some .damaged)).boundEmergency.buffer.queue.map Chunk.seq = [1] := by decide
theorem test_emergency_close : (after .emergencyClose (ordered drainedClip)).clip.state = .idle ∧
    ((after .emergencyClose (ordered drainedClip)).clip.slot 0).endReason = some .emergency := by decide
/-! ### Boundary values of the clauses about notices, orders and waiting copies -/

/-- The notices of a state, oldest first. -/
def State.told (s : State) : List Notice := s.link.notices.map NoticeEntry.notice

/-- The answers a state has ready or waits with. -/
def State.answers (s : State) : List Answer := s.link.outstanding.map Request.answer

/-- Motion active with a LENS copy waiting, no band outstanding and every axis 20000 behind (section 3.8): the new
margins are 20000, 12000 and 0, and a latch offset of −20000 makes every band due at once. -/
def lensWaiting : State :=
  let s := started []
  { s with
    capture := { s.capture with bands := [] }
    frame := { s.frame with record := none }
    motion := { s.motion with
      lens := ⟨s.motion.lens.active, some { lens4 with
        latchOffset := -20000, axes := ⟨yaw38, { yaw38 with margin := 12000 }, { yaw38 with margin := 0 }⟩ }⟩
      axes := ⟨yawAfter 3, yawAfter 3, yawAfter 3⟩ } }

theorem witness_FsEdge_copy : lensWaiting.link.parked = false ∧ lensWaiting.imu.active = true ∧
    lensWaiting.motion.lens.newest.bands = 4 ∧ lensWaiting.motion.lens.pending.isSome = true ∧
    lensWaiting.capture.bands = [] ∧ (yawAfter 3).err.natAbs = 20000 ∧
    (buildBands lensWaiting.motion.lens.newest lensWaiting.now).map BandDue.due = [22000, 26000, 30000, 34000] ∧
    lensWaiting.now = 40000 := by decide
/-- An axis within its new margin is re-based alone; one beyond it is brought into line and marked (R42, R31). With all
bands due at once the record leaves in the same edge. -/
theorem test_fs_edge_line_up : let t := after .fsEdge lensWaiting
    t.motion.axes.yaw = { angle := 0, path := -20000, err := -20000, errPrev := -20000, disp := -20 } ∧
    t.motion.axes.pitch = { angle := 0, path := -12000, err := -12000, errPrev := -12000, disp := -12 } ∧
    t.motion.axes.roll = .reset ∧ t.capture.bands = [] ∧ t.frame.record = none ∧
    t.frame.sendList.map (fun r => (r.entries, r.flags.marginX, r.flags.marginY, r.flags.marginRoll)) =
      [(List.replicate 4 (-20, -12), false, true, true)] := by decide

/-- The last band of a frame in a clip whose accumulator holds n records, m records in the send list. -/
def lastInClip (n m : Nat) : State :=
  { lastBand (List.replicate m record) with frame := { (lastBand (List.replicate m record)).frame with
      accOpen := true, acc := List.replicate n record } }

/-- A record that joins the send list goes to the accumulator as well, and one withheld does not, with MOTION_DROP
(R50, R51, R53). -/
theorem test_band_accumulates :
    (after .bandExpiry (lastInClip 6 7)).frame.acc.length = 7 ∧
    (after .bandExpiry (lastInClip 7 7)).buffer.queue.map Chunk.length = [8 * record.bytes.length + 4] ∧
    (after .bandExpiry (lastInClip 6 8)).frame.acc.length = 6 ∧
    State.told (after .bandExpiry (lastInClip 6 8)) = [.motionDrop .sendFull 1 1] ∧
    quiet.frame.accOpen = false := by decide +kernel

/-- A shock with slot 0 FILLING and slot 1 CLOSED, a protect limit, and a shock hold that stands. -/
def shockInBoth (limit : Nat) (hold : Option Time) : State :=
  let s := shockIn .filling
  { s with
    clip := { s.clip with
      cfg := { s.clip.cfg with protectLimit := limit }
      slots := s.clip.slots.set 1 { Slot.reset with state := .closed, endTime := some 0, closeSeq := some 1 } }
    card := { s.card with shockHold := hold } }

theorem witness_ReadCompleteProcesses_both :
    (shockInBoth 1 none).clip.filling = some filling0 ∧ ((shockInBoth 1 none).clip.slot 0).state = .filling ∧
    ((shockInBoth 1 none).clip.slot 1).state = .closed ∧
    (∀ j, j < 64 → j ≠ 1 → ((shockInBoth 1 none).clip.slot j).state ≠ .closed) ∧
    (shockInBoth 0 none).clip.protectedCount = 0 ∧ (100000 : Nat) = 1000 * (shockInBoth 1 none).clip.cfg.shockHoldMs ∧
    atOrAfter 100000 (later 0 100000) = true ∧ atOrAfter 99999 (later 0 100000) = false := by decide
/-- Step 1 of R98 comes before step 2: with one place left the segment being filled takes it. A hold that stands and
ends no earlier stays (R120). -/
theorem test_shock_both :
    let shock := fun limit hold => after (.readComplete hardSample) (shockInBoth limit hold)
    ((shock 1 none).clip.slot 0).prot = some .shock ∧ ((shock 1 none).clip.slot 1).prot = none ∧
    (shock 1 none).clip.protectRefused = 1 ∧ ((shock 2 none).clip.slot 1).prot = some .shock ∧
    (shock 0 none).clip.protectRefused = 2 ∧ (shock 1 (some 200000)).card.shockHold = some 200000 ∧
    (shock 1 (some 50000)).card.shockHold = (shock 1 none).card.shockHold := by decide

/-- The two chunks with a flush pending that marks the first. -/
def flushing : State := { recording with buffer := { twoChunks with flush := some 1 } }

/-- A FLUSH while one is pending moves the mark to the later chunk (R76). -/
theorem test_flush_later : (∃ d ∈ flushing.buffer.queue, d.seq = 1) ∧
    (after (.flush (cmd 3)) flushing).buffer.flush = some 2 := by decide

/-- A SEGMENT load of two entries, each a slot and its first granule, of one granule each. -/
def twoSegments (i a j b : Byte) : Packet := load 2 0 2 [i, 0, a, 0, 1, 0, j, 0, b, 0, 1, 0]

theorem witness_SegmentLoad_two : state610.executes (.segmentLoad (twoSegments 0 6 63 15)) ∧
    (twoSegments 0 6 63 15).header.entryCount = 2 ∧ (twoSegments 0 6 63 15).payload.length = 6 * 2 ∧
    (state610.clip.slot 0).state = .free ∧ (∀ j, j < 64 → 1 < j → (state610.clip.slot j).state = .empty) := by
  refine ⟨⟨?_, ?_, ?_⟩, ?_⟩ <;> decide +kernel
/-- Both entries are stored or neither: a slot named twice, extents that meet and a granule outside the window are
BAD_ARG, and a slot in use BUSY before them (R85). -/
theorem test_two_segments :
    let loaded := fun i a j b => after (.segmentLoad (twoSegments i a j b)) state610
    let segment := fun (t : State) i => ((t.clip.slot i).state, (t.clip.slot i).first)
    segment (loaded 0 6 63 15) 0 = (.free, 6) ∧ segment (loaded 0 6 63 15) 63 = (.free, 15) ∧
    State.answers (loaded 62 6 62 7) = [.ready .badArg []] ∧ State.answers (loaded 62 6 63 6) = [.ready .badArg []] ∧
    State.answers (loaded 62 6 63 16) = [.ready .badArg []] ∧ segment (loaded 62 6 63 16) 62 = (.empty, 0) ∧
    State.answers (loaded 64 6 1 7) = [.ready .busy []] := by decide +kernel

/-- Before any update no zone is in force. -/
theorem witness_PlainCommands_zone : quiet.executes (.status (cmd 15)) ∧ quiet.charge.zone = none := by
  refine ⟨⟨?_, ?_, ?_⟩, ?_⟩ <;> decide
/-- Fields of the snapshot at their offsets (section 11.5). -/
theorem test_snapshot_fields :
    let bytes := fun (s : State) k n => ((s.snapshotWith 3).drop k).take n
    bytes lensWaiting 68 8 = [0xE0, 0xB1, 0xFF, 0xFF, 0xFF, 0xFF, 0xFF, 0xFF] ∧ bytes lensWaiting 55 1 = [1] ∧
    bytes state610 148 2 = [2, 1] ∧ bytes state610 156 4 = [0x80, 0x1A, 6, 0] ∧ bytes recording 140 2 = [1, 0] ∧
    bytes quiet 177 1 = [3] ∧ bytes quiet 128 4 = [0x80, 1, 0, 1] := by decide +kernel

/-- A card present in a state. -/
def present (x : CardState) : State :=
  { quiet with card := { CardController.reset with state := x, present := true } }

/-- A host reset sends WAKE to a card left asleep and IDENTIFY to any other, and nothing with CLAIM asserted (R105). -/
theorem test_reset_identifies :
    let sent := fun s => (after .resetAssert s).card.bus
    sent (present .sleep) = some ⟨.wake, 5000⟩ ∧ sent (present .fault) = some ⟨.identify, 50000⟩ ∧
    sent (granted .sleep) = some ⟨.identify, 50000⟩ ∧ sent (cardIn .absent) = none ∧
    sent { present .ready with pins := { Pins.released with claim := true } } = none := by decide +kernel
theorem witness_HostReset_init :
    (waiting .init .status none (some try2) 0).card.state = .init ∧
    (waiting .init .status none (some try2) 0).card.ident = some try2 ∧ (present .sleep).card.state = .sleep ∧
    (present .sleep).runGranted = false ∧ (granted .sleep).runGranted = true ∧ (present .sleep).pins.claim = false ∧
    (present .sleep).card.present = true ∧ (present .sleep).pins.reset = false ∧
    (lines false true true).pins.reset = false ∧ (lines false true true).card.present = false := by decide
/-- A power-on with CLAIM asserted reports it (R123, R118). -/
theorem test_power_on_claimed : State.told (after .powerOn (lines true true true)) = [.cardTaken .absent 0] ∧
    (after .powerOn (lines true true true)).card.bus = none ∧
    (after .powerOn (lines false false true)).card.bus = some ⟨.identify, 50000⟩ := by decide
/-- CHARGE_INHIBIT in TAPER enters HOLD with its notice, and CHARGE_CLEAR leaves FAULT without one (R128, R137, R138). -/
theorem test_charge_notices :
    State.told (after (.chargeInhibit (cmd 9)) (charging .taper .qualify .clear)) =
      [.chargeState .hold none { HoldCauses.clear with inhibit := true } 0] ∧
    State.told (after (.chargeClear (cmd 11)) (charging .fault .qualify .clear)) = [] ∧
    (after (.chargeClear (cmd 11)) (charging .fault .qualify .clear)).charge.stage = .idle := by decide
/-- A profile load in FAST enters HOLD with the cause PROFILE and its notice (R141). -/
theorem test_profile_holds :
    let t := after (.chargeProfileLoad (load 8 22 1 [0x4C, 0x04, 0, 0])) (charging .fast .qualify .clear)
    t.charge.stage = .hold ∧ t.charge.resume = .qualify ∧
    State.told t = [.chargeState .hold none { HoldCauses.clear with profile := true } 0] := by decide

/-- A full error log, in a clip. -/
def logFull : State :=
  { recording with card := { CardController.reset with
      logSeq := 32, log := List.replicate 32 { seq := 1, kind := .busyTimeout, addr := 0, slot := none, attempts := 1,
                                               time := 0 } } }

theorem witness_CardRemoval_lost : quiet.clip.state = .idle ∧ recording.clip.state ≠ .idle ∧
    ¬logFull.card.log.length < 32 ∧ quiet.card.log.length < 32 := by decide
/-- A lost clip ends CARD_ABSENT; an entry on a full log pushes the oldest out (R116, R122). -/
theorem test_clip_lost : State.told recording.clipLost = [.clipEnded 0 .cardAbsent] ∧
    recording.clipLost.clip.state = .idle ∧ (logFull.logError .cardRemoved 0 none 1).card.log.length = 32 ∧
    (logFull.logError .cardRemoved 0 none 1).card.overflow = 1 := by decide

/-- The third try of an identification, and an INIT begun by the release of CLAIM. -/
def try3 : Identification := { origin := .claimRelease, attempt := 3, capacity := some 9 }

/-- The third try fails into FAULT with INIT_FAILED; the card given back is reported (R105). -/
theorem test_identification_ends :
    State.told (after (.cardStatusResponse true) (waiting .init .status none (some try3) 0)) = [.cardReturned 9] ∧
    (let t := after (.cardStatusResponse false) (unclipped .init .status (some try3))
     t.card.state = .fault ∧ State.told t = [.cardError .initFailed 1]) ∧
    (let t := after .cardTimeout (State.at (unclipped .init .identify (some try3)) 100)
     t.card.state = .fault ∧ State.told t = [.cardError .initFailed 1]) := by decide

/-- The block given up of a damaged segment, its CLOSE_RUN unanswered, after n timeouts. -/
def unclosed (n : Nat) : State :=
  let s := State.at (givenUp .recording [16384] 3 31) 100
  { s with card := { s.card with recovery := n } }

/-- That run. -/
def unclosedRun : Run :=
  { slot := 1, first := 0, addr := 65536 + 5 * 16384, count := 3, acked := 2, attempts := 0, after := .giveUp,
    awaitHold := false }

theorem witness_CardTimeouts_more : (unclosed 2).card.run = some unclosedRun ∧ unclosedRun.after = .giveUp ∧
    unclosedRun.acked < unclosedRun.count ∧ (unclosed 2).card.bus = some ⟨.closeRun, 100⟩ ∧
    atOrAfter (unclosed 2).now 100 = true ∧ (lastBlock .leave).after = .leave ∧
    { lastBlock .retry with acked := 1 }.count ≤ { lastBlock .retry with acked := 1 }.acked ∧
    (waiting .run (.busy 0) none none 0).card.run = none ∧ 3 ≤ try3.attempt := by decide +kernel
/-- The skip first closes the damaged segment DAMAGED before the third timeout ends the clip; the timeout first leaves it
INTERRUPTED. Either order logs both entries (R97, R111, R113). -/
theorem test_close_run_unanswered :
    let skipFirst := ((unclosed 2).skipBlock unclosedRun).runTimeout .noResponse
    let timeoutFirst := ((unclosed 2).runTimeout .noResponse).skipBlock unclosedRun
    (skipFirst.clip.slot 1).state = .closed ∧ (skipFirst.clip.slot 1).endReason = some .damaged ∧
    skipFirst.card.state = .fault ∧ skipFirst.card.log.map LogEntry.kind = [.blockFailed, .noResponse] ∧
    (timeoutFirst.clip.slot 1).state = .interrupted ∧
    timeoutFirst.card.log.map LogEntry.kind = [.noResponse, .blockFailed] := by decide +kernel
/-- A busy that runs out is logged with its block and begins recovery (R113, R116). -/
theorem test_busy_timeout : let t := after .busyTimeout (State.at writing 100)
    State.told t = [.cardError .busyTimeout 1] ∧ t.card.state = .recover ∧ t.card.recovery = 1 ∧
    t.card.log.map LogEntry.addr = [0] := by decide

/-- A skip not recorded with every placed chunk within the blocks acknowledged: the segment is not damaged. -/
def nothingPast : State :=
  let s := givenUp .emergency [16384] 4 31
  { s with buffer := { s.buffer with queue := [placedAt 1 1000 0] } }

theorem witness_RunFailures_unrecorded :
    (∀ c ∈ nothingPast.buffer.queue, c.place = some 0 ∧ 0 + (16 + c.length) ≤ 512 * 2) ∧
    nothingPast.clip.filling.map Filling.front = some 2 ∧ nothingPast.card.run = some unclosedRun := by decide +kernel

/-- An input seen for two updates, an update due now, in a clip or not, with no input for four updates. -/
def powered (s : State) (run low : Nat) (there : Bool) : State :=
  due { s with budget := { Budget.reset with presenceRun := run, lowRun := low, inputPresent := there } }

/-- The notices of an update: INPUT, THERMAL, CHARGE_STATE and POWER_LOW (R124, R127, R128, R155). -/
theorem test_update_notices :
    let told := fun conv s => State.told (after (.monitorUpdate conv) s)
    let hot : Conversions := { convs 3800 5000 0 with tdie := ⟨950, 950, 950, 950⟩ }
    told (convs 3800 4400 0) (powered quiet 2 0 false) = [.input true 4400] ∧
    told (convs 3800 4399 0) (powered quiet 2 0 false) = [] ∧
    told (convs 3800 3999 0) (powered quiet 0 0 true) = [.input false 3999] ∧
    told hot (powered quiet 0 0 true) = [.thermal .warn 950] ∧
    told (convs 4201 5000 0) (due (charging .fast .qualify .clear)) =
      [.chargeState .hold none { HoldCauses.clear with overVoltage := true } 4201] ∧
    told (convs 3300 3999 0) (powered quiet 0 4 false) = [.powerLow .both 0 3300 false] ∧
    told (convs 3301 3999 0) (powered quiet 0 3 false) = [] ∧
    told (convs 3300 3999 0) (powered drainedClip 0 4 false) = [.powerLow .both 0 3300 true] := by decide +kernel

theorem witness_NoticeRaised : (linked [] [] [⟨65535, .input true 5000⟩]).link.notices =
    [] ++ ⟨65535, .input true 5000⟩ :: [] ∧ (Notice.input true 5000).kind = (Notice.input false 0).kind ∧
    (∀ e ∈ quiet.link.notices, e.notice.kind ≠ .input) := by decide
theorem witness_BufferKept : quiet.buffer.PagesKept ∧ quiet.buffer.Balanced ∧ quiet.buffer.Bounded ∧
    step quiet = .next quiet.tick := by
  refine ⟨?_, ?_, ?_, rfl⟩
  · have h : quiet.buffer.free ++ quiet.buffer.queue.flatMap (·.pages) = List.range 384 := by
      decide +kernel
    exact List.Perm.of_eq h
  · unfold ChunkBuffer.Balanced; decide
  · unfold ChunkBuffer.Bounded; decide +kernel
theorem witness_ClipKept : quiet.clip.OneFilling ∧ quiet.ClipAtRest ∧ quiet.clip.WithinLimit ∧
    step quiet = .next quiet.tick := by
  have none_filling : ∀ i, (quiet.clip.slot i).state = .empty := by
    intro i
    by_cases h : i < 64
    · exact (by decide : ∀ i, i < 64 → (quiet.clip.slot i).state = .empty) i h
    · exact slot_beyond _ i h
  refine ⟨⟨fun i h => ?_, ?_⟩, ?_, ?_, rfl⟩
  · rw [none_filling i] at h; cases h
  · decide
  · unfold State.ClipAtRest; decide
  · unfold ClipRecorder.WithinLimit; decide
theorem witness_CardAndLinkKept : quiet.RunGranted ∧ quiet.card.Bounded ∧ quiet.LinkBounded ∧
    step quiet = .next quiet.tick := by
  refine ⟨?_, ?_, ?_, rfl⟩
  · unfold State.RunGranted; decide
  · unfold CardController.Bounded; decide
  · unfold State.LinkBounded; decide
theorem witness_SetpointKept : fastAt500.SetpointBounded ∧ step fastAt500 = .next fastAt500.tick := by
  refine ⟨?_, rfl⟩
  unfold State.SetpointBounded ChargeProfile.NonNegative; decide

end Sys2Proof.Tests
end

section
/-! SUPPORT. The laws of the three rounding rules (R32) and of the effective shift (R35). -/
namespace Sys2Proof.Machine

/-! ### Floor shift -/

theorem floorShift_mul_le (v : Int) (n : Nat) : floorShift v n * 2 ^ n ≤ v :=
  Int.ediv_mul_le v (by positivity)

theorem lt_floorShift_succ_mul (v : Int) (n : Nat) : v < (floorShift v n + 1) * 2 ^ n :=
  Int.lt_ediv_add_one_mul_self v (by positivity)

/-! ### Truncating division -/

theorem truncDiv_natCast (m k : Nat) : truncDiv m k = ((m / k : Nat) : Int) := rfl

theorem natAbs_truncDiv_mul_le (a b : Int) : (truncDiv a b * b).natAbs ≤ a.natAbs := by
  rw [truncDiv, Int.natAbs_mul, Int.natAbs_tdiv]
  exact Nat.div_mul_le_self a.natAbs b.natAbs

/-- What truncating division leaves over is the truncated remainder. -/
theorem sub_truncDiv_mul (a b : Int) : a - truncDiv a b * b = a.tmod b := by
  rw [truncDiv, Int.tmod_def, mul_comm]

theorem natAbs_sub_truncDiv_mul_lt (a : Int) {b : Int} (hb : 0 < b) :
    (a - truncDiv a b * b).natAbs < b.natAbs := by
  rw [sub_truncDiv_mul, Int.natAbs_tmod]
  exact Nat.mod_lt _ (Int.natAbs_pos.mpr hb.ne')

/-- Over a positive divisor the quotient never has the sign opposite to the dividend's. -/
theorem truncDiv_mul_self_nonneg (a : Int) {b : Int} (hb : 0 < b) : 0 ≤ truncDiv a b * a := by
  rcases le_total 0 a with ha | ha
  · exact mul_nonneg (Int.tdiv_nonneg ha hb.le) ha
  · have hneg : truncDiv a b = -(-a).tdiv b := by rw [truncDiv, Int.neg_tdiv, neg_neg]
    have hq : 0 ≤ (-a).tdiv b := Int.tdiv_nonneg (by omega) hb.le
    exact mul_nonneg_of_nonpos_of_nonpos (by omega) ha

/-! ### Round half away -/

theorem roundHalfAway_neg (a : Int) (b : Nat) : roundHalfAway (-a) b = -roundHalfAway a b := by
  simp [roundHalfAway]

/-- On a magnitude the sign drops out: 0 rounds to 0 with or without it. -/
theorem roundHalfAway_natCast (m b : Nat) :
    roundHalfAway m b = (((2 * m + b) / (2 * b) : Nat) : Int) := by
  rcases m.eq_zero_or_pos with rfl | hm
  · have hzero : b / (2 * b) = 0 := by
      rw [Nat.div_eq_zero_iff]
      omega
    simp [roundHalfAway, hzero]
  · simp [roundHalfAway, Int.sign_eq_one_of_pos (Int.natCast_pos.mpr hm)]

/-- The multiple of b a magnitude rounds to is less than half of b below it, or at most half of b above it. -/
theorem roundHalfAway_natCast_mul (m : Nat) {b : Nat} (hb : 0 < b) :
    2 * (m : Int) < 2 * (roundHalfAway m b * b) + b ∧ 2 * (roundHalfAway m b * b) ≤ 2 * (m : Int) + b := by
  rw [roundHalfAway_natCast]
  have hle := Nat.div_mul_le_self (2 * m + b) (2 * b)
  have hlt := Nat.lt_div_mul_add (a := 2 * m + b) (show 0 < 2 * b by omega)
  generalize (2 * m + b) / (2 * b) = q at hle hlt ⊢
  rw [show q * (2 * b) = 2 * (q * b) by ring] at hle hlt
  rw [← Nat.cast_mul]
  omega

theorem natAbs_roundHalfAway_error_le (a : Int) {b : Nat} (hb : 0 < b) :
    2 * (roundHalfAway a b * (b : Int) - a).natAbs ≤ b := by
  obtain ⟨m, hm⟩ := a.eq_nat_or_neg
  obtain ⟨hlow, hhigh⟩ := roundHalfAway_natCast_mul m hb
  rcases hm with rfl | rfl
  · omega
  · rw [roundHalfAway_neg, neg_mul]
    omega

/-- Halfway between two integers the one farther from zero is taken. -/
theorem natAbs_lt_roundHalfAway_mul_of_half (a : Int) {b : Nat} (hb : 0 < b)
    (half : 2 * (roundHalfAway a b * (b : Int) - a).natAbs = b) :
    a.natAbs < (roundHalfAway a b * (b : Int)).natAbs := by
  obtain ⟨m, hm⟩ := a.eq_nat_or_neg
  obtain ⟨hlow, hhigh⟩ := roundHalfAway_natCast_mul m hb
  rcases hm with rfl | rfl
  · omega
  · rw [roundHalfAway_neg, neg_mul] at half ⊢
    omega

theorem roundHalfAway_eq_sign_mul_truncDiv (a : Int) (b : Nat) :
    roundHalfAway a b = a.sign * truncDiv (2 * (a.natAbs : Int) + b) (2 * b) := by
  have hquot := truncDiv_natCast (2 * a.natAbs + b) (2 * b)
  simp only [Nat.cast_add, Nat.cast_mul, Nat.cast_ofNat] at hquot
  rw [hquot, roundHalfAway]

/-- Over a power of two, rounding half away is a floor shift of the magnitude with half the divisor added. -/
theorem roundHalfAway_two_pow (a : Int) {n : Nat} (hn : 1 ≤ n) :
    roundHalfAway a (2 ^ n) = a.sign * floorShift ((a.natAbs : Int) + 2 ^ (n - 1)) n := by
  obtain ⟨k, rfl⟩ := Nat.exists_eq_add_of_le' hn
  have hhalve : (2 * a.natAbs + 2 ^ (k + 1)) / (2 * 2 ^ (k + 1)) = (a.natAbs + 2 ^ k) / 2 ^ (k + 1) := by
    rw [show 2 * a.natAbs + 2 ^ (k + 1) = 2 * (a.natAbs + 2 ^ k) by ring]
    exact Nat.mul_div_mul_left _ _ two_pos
  rw [roundHalfAway, hhalve, floorShift, Nat.add_sub_cancel]
  push_cast
  rfl

/-- Settles O18: each rule by its own laws above; the examples are the table of R32. -/
theorem roundingRules : Obligations.RoundingRules :=
  ⟨fun v n => ⟨floorShift_mul_le v n, lt_floorShift_succ_mul v n⟩,
    fun a b hb => ⟨natAbs_roundHalfAway_error_le a hb, natAbs_lt_roundHalfAway_mul_of_half a hb,
      roundHalfAway_eq_sign_mul_truncDiv a b⟩,
    fun a _ hn => roundHalfAway_two_pow a hn,
    fun a b hb => ⟨natAbs_truncDiv_mul_le a b, natAbs_sub_truncDiv_mul_lt a hb, truncDiv_mul_self_nonneg a hb⟩,
    by decide⟩

/-! ### The effective shift -/

theorem effectiveShift_of_le_half (a : LensAxis) {c : Int} (low : c.natAbs ≤ a.margin / 2) :
    effectiveShift a c = a.shift := if_pos low

theorem effectiveShift_of_le_three_quarters (a : LensAxis) {c : Int} (above : a.margin / 2 < c.natAbs)
    (low : c.natAbs ≤ 3 * a.margin / 4) : effectiveShift a c = max (a.shift - 2) 1 := by
  rw [effectiveShift, if_neg above.not_ge, if_pos low]

/-- Three quarters of the margin is no less than its half, so the last range lies above both bounds. -/
theorem effectiveShift_of_three_quarters_lt (a : LensAxis) {c : Int} (above : 3 * a.margin / 4 < c.natAbs) :
    effectiveShift a c = max (a.shift - 4) 1 := by
  have above_half : a.margin / 2 < c.natAbs := by omega
  rw [effectiveShift, if_neg above_half.not_ge, if_neg above.not_ge]

/-- Settles O19: the three ranges in turn; the error 0 of a margin 0 lies in the first. (The obligation's own name is
that of the function it is about.) -/
theorem effectiveShift_ranges : Obligations.EffectiveShift := fun a _ =>
  ⟨effectiveShift_of_le_half a, effectiveShift_of_le_three_quarters a, effectiveShift_of_three_quarters_lt a,
    fun _ => effectiveShift_of_le_half a (Nat.zero_le _)⟩

end Sys2Proof.Machine
end

section
/-! SUPPORT. The invariants that every step keeps, as one relation between the states before and after an update:
composed along the updates of an event, it gives each invariant of the step lemmas. -/
namespace Sys2Proof.Machine

/-! ### The invariants, and what they speak of -/

/-- What holds of the chunk buffer between any two updates of an event; HOLD is brought up to date at its end only. -/
def ChunkBuffer.Sound (b : ChunkBuffer) : Prop :=
  b.PagesKept ∧ b.Balanced ∧ b.queue.length ≤ 256 ∧ ramWf b.ram = true

/-- What holds of the clip recorder between any two updates of an event. -/
def State.ClipSound (s : State) : Prop := s.clip.OneFilling ∧ s.ClipAtRest ∧ s.clip.WithinLimit

/-- Everything that the invariants speak of, but the card's RUN with its grant and the HOLD line. -/
structure Guarded where
  pages : List (List Nat)
  free : List Nat
  ram : List Host.Cell
  counts : Word32 × Word32 × Word32
  accOpen : Bool
  sendList : List FrameRecord
  clipState : ClipState
  slots : Vector Slot 64
  filling : Option Nat
  protectLimit : Nat
  cardLists : List BadGranule × List LogEntry × List Nat
  waiting : Nat
  notices : List NoticeEntry
  charge : ChargeController
  setpoint : Int

/-- What the invariants speak of, read from a state. -/
def State.guarded (s : State) : Guarded :=
  { pages := s.buffer.queue.map Chunk.pages, free := s.buffer.free, ram := s.buffer.ram
    counts := (s.buffer.accepted, s.buffer.written, s.buffer.discarded)
    accOpen := s.frame.accOpen, sendList := s.frame.sendList
    clipState := s.clip.state, slots := s.clip.slots, filling := s.clip.filling.map Filling.slot
    protectLimit := s.clip.cfg.protectLimit
    cardLists := (s.card.badList, s.card.log, s.card.suppressed)
    waiting := s.link.outstanding.length, notices := s.link.notices
    charge := s.charge, setpoint := s.budget.setpoint }

/-- The invariants, but the card's RUN with its grant, hold after an update that they held before. -/
structure State.KeepsBut (s t : State) : Prop where
  buffer : s.buffer.Sound → t.buffer.Sound
  clip : s.ClipSound → t.ClipSound
  card : s.card.Bounded → t.card.Bounded
  link : s.LinkBounded → t.LinkBounded
  waiting : t.link.outstanding.length ≤ s.link.outstanding.length
  power : s.SetpointBounded → t.SetpointBounded

/-- The invariants hold after an update that they held before. -/
structure State.Keeps (s t : State) : Prop extends State.KeepsBut s t where
  run : s.RunGranted → t.RunGranted

variable {s t u : State}

theorem State.KeepsBut.trans (h : s.KeepsBut t) (k : t.KeepsBut u) : s.KeepsBut u :=
  ⟨k.buffer ∘ h.buffer, k.clip ∘ h.clip, k.card ∘ h.card, k.link ∘ h.link, k.waiting.trans h.waiting,
    k.power ∘ h.power⟩

theorem State.Keeps.trans (h : s.Keeps t) (k : t.Keeps u) : s.Keeps u :=
  ⟨h.toKeepsBut.trans k.toKeepsBut, k.run ∘ h.run⟩

@[simp] theorem State.Keeps.refl (s : State) : s.Keeps s := ⟨⟨id, id, id, id, le_rfl, id⟩, id⟩

/-! ### Each invariant speaks of the guarded part alone -/

theorem ChunkBuffer.Sound.congr (h : t.guarded = s.guarded) (hs : s.buffer.Sound) : t.buffer.Sound := by
  have hq : t.buffer.queue.map Chunk.pages = s.buffer.queue.map Chunk.pages := congrArg Guarded.pages h
  have hf : t.buffer.free = s.buffer.free := congrArg Guarded.free h
  have hr : t.buffer.ram = s.buffer.ram := congrArg Guarded.ram h
  have hc := congrArg Guarded.counts h
  simp only [State.guarded, Prod.mk.injEq] at hc
  obtain ⟨ha, hw, hd⟩ := hc
  have hl : t.buffer.queue.length = s.buffer.queue.length := by simpa using congrArg List.length hq
  obtain ⟨h1, h2, h3, h4⟩ := hs
  refine ⟨h1.congr hf ?_, h2.congr ha hw hd hl, by rw [hl]; exact h3, by rw [hr]; exact h4⟩
  rw [List.flatMap_def, List.flatMap_def, hq]

theorem ClipRecorder.slot_congr {c d : ClipRecorder} (h : d.slots = c.slots) (i : Nat) : d.slot i = c.slot i := by
  unfold ClipRecorder.slot; rw [h]

theorem State.ClipSound.congr (h : t.guarded = s.guarded) (hs : s.ClipSound) : t.ClipSound := by
  have hq : t.buffer.queue.map Chunk.pages = s.buffer.queue.map Chunk.pages := congrArg Guarded.pages h
  have ha : t.frame.accOpen = s.frame.accOpen := congrArg Guarded.accOpen h
  have hx : t.clip.state = s.clip.state := congrArg Guarded.clipState h
  have hv : t.clip.slots = s.clip.slots := congrArg Guarded.slots h
  have hf : t.clip.filling.map Filling.slot = s.clip.filling.map Filling.slot := congrArg Guarded.filling h
  have hl : t.clip.cfg.protectLimit = s.clip.cfg.protectLimit := congrArg Guarded.protectLimit h
  have hn : t.clip.filling.isSome = s.clip.filling.isSome := by simpa using congrArg Option.isSome hf
  obtain ⟨⟨h1, h2⟩, ⟨h3, h4⟩, h5⟩ := hs
  refine ⟨⟨fun i hi => ?_, fun hi => ?_⟩, ⟨fun hi => ?_, fun hi => ?_⟩, ?_⟩
  · rw [hf]; rw [ClipRecorder.slot_congr hv] at hi; exact h1 i hi
  · rw [hx]; exact h2 (by rwa [hn] at hi)
  · rw [hx] at hi; rw [h3 hi] at hq; simpa using hq
  · rw [hx]; exact h4 (by rwa [ha] at hi)
  · unfold ClipRecorder.WithinLimit ClipRecorder.protectedCount; rw [hv, hl]; exact h5

theorem CardController.Bounded.congr (h : t.guarded = s.guarded) (hs : s.card.Bounded) : t.card.Bounded := by
  have hc := congrArg Guarded.cardLists h
  simp only [State.guarded, Prod.mk.injEq] at hc
  obtain ⟨h1, h2, h3⟩ := hc
  unfold CardController.Bounded
  rw [h1, h2, h3]
  exact hs

theorem State.LinkBounded.congr (h : t.guarded = s.guarded) (hs : s.LinkBounded) : t.LinkBounded := by
  have hw : t.link.outstanding.length = s.link.outstanding.length := congrArg Guarded.waiting h
  have hn : t.link.notices = s.link.notices := congrArg Guarded.notices h
  have hl : t.frame.sendList = s.frame.sendList := congrArg Guarded.sendList h
  unfold State.LinkBounded
  rw [hw, hn, hl]
  exact hs

theorem State.SetpointBounded.congr (hc : t.charge = s.charge) (hp : t.budget.setpoint = s.budget.setpoint)
    (hs : s.SetpointBounded) : t.SetpointBounded := by
  unfold State.SetpointBounded; rw [hc, hp]; exact hs

/-- An update that leaves the guarded part as it was. -/
theorem State.KeepsBut.quiet (h : t.guarded = s.guarded) : s.KeepsBut t :=
  ⟨.congr h, .congr h, .congr h, .congr h, le_of_eq (congrArg Guarded.waiting h),
    .congr (congrArg Guarded.charge h) (congrArg Guarded.setpoint h)⟩

/-- An update that leaves the guarded part, the card's state and the grant as they were. -/
theorem State.Keeps.quiet (h : t.guarded = s.guarded) (hc : t.card.state = s.card.state)
    (hg : t.budget.grant = s.budget.grant) : s.Keeps t :=
  ⟨.quiet h, fun k => by unfold State.RunGranted; rw [hc, hg]; exact k⟩

/-- An update after which the card is not in RUN. -/
theorem State.KeepsBut.outside (h : s.KeepsBut t) (hc : t.card.state ≠ .run) : s.Keeps t := ⟨h, fun _ k => absurd k hc⟩

/-! ### Notices, and the packets waiting to be sent -/

theorem State.LinkBounded.raise (h : s.LinkBounded) (n : Notice) : (s.raise n).LinkBounded := by
  obtain ⟨h1, h2, h3, h4⟩ := h
  exact ⟨h1, noticeAdd_nodup _ _ h2, noticeAdd_counts _ _ h3, h4⟩

theorem State.keeps_raise (s : State) (n : Notice) : s.Keeps (s.raise n) := ⟨⟨id, id, id, (·.raise n), le_rfl, id⟩, id⟩

theorem State.keeps_raiseIf (s : State) (b : Bool) (n : Notice) : s.Keeps (s.raiseIf b n) := by
  unfold State.raiseIf
  split
  · exact s.keeps_raise n
  · exact .refl s

/-- The arbiter only takes from what waits to be sent. -/
theorem State.keeps_arbitrate (s : State) : s.Keeps s.arbitrate := by
  rcases arbitrate_cases s with h | ⟨r, rs, hl, h⟩ | ⟨r, rs, code, data, -, ho, -, h⟩ | ⟨e, es, -, hn, h⟩ <;> rw [h]
  · exact .refl s
  · refine ⟨⟨id, id, id, fun ⟨h1, h2, h3, h4⟩ => ⟨h1, h2, h3, ?_⟩, le_rfl, id⟩, id⟩
    rw [hl, List.length_cons] at h4
    exact Nat.le_of_succ_le h4
  · have hle : rs.length ≤ s.link.outstanding.length := by rw [ho]; simp
    exact ⟨⟨id, id, id, fun ⟨h1, h2, h3, h4⟩ => ⟨hle.trans h1, h2, h3, h4⟩, hle, id⟩, id⟩
  · refine ⟨⟨id, id, id, fun ⟨h1, h2, h3, h4⟩ => ⟨h1, ?_, ?_, h4⟩, le_rfl, id⟩, id⟩
    · rw [hn, List.map_cons, List.nodup_cons] at h2; exact h2.2
    · rw [hn] at h3; exact fun x hx => h3 x (List.mem_cons_of_mem _ hx)

/-! ### The chunk buffer -/

/-- An update of the chunk buffer that keeps it sound, and empty where it was. -/
theorem State.keeps_buffer (s : State) {b : ChunkBuffer} (h : s.buffer.Sound → b.Sound)
    (he : s.buffer.queue = [] → b.queue = []) : s.Keeps { s with buffer := b } :=
  ⟨⟨h, fun ⟨h1, ⟨h2, h3⟩, h4⟩ => ⟨h1, ⟨fun hi => he (h2 hi), h3⟩, h4⟩, id, id, le_rfl, id⟩, id⟩

theorem ChunkBuffer.Sound.discardWhere {b : ChunkBuffer} (h : b.Sound) (p : Chunk → Bool) : (b.discardWhere p).Sound := by
  obtain ⟨h1, h2, h3, h4⟩ := h
  exact ⟨h1.discardWhere p, h2.discardWhere p,
    (by simpa [ChunkBuffer.discardWhere] using (List.length_filter_le _ _).trans h3), by
      simpa [ChunkBuffer.discardWhere] using h4⟩

theorem ChunkBuffer.Sound.discardFrom {b : ChunkBuffer} (h : b.Sound) (q : Word32) : (b.discardFrom q).Sound := by
  obtain ⟨h1, h2, h3, h4⟩ := h
  refine ⟨h1.discardFrom q, h2.discardFrom q, ?_, by simpa [ChunkBuffer.discardFrom] using h4⟩
  simp only [ChunkBuffer.discardFrom, ChunkBuffer.clearFlush_queue, List.length_take]
  omega

theorem ChunkBuffer.Sound.popWritten {b : ChunkBuffer} (h : b.Sound) : b.popWritten.Sound := by
  obtain ⟨h1, h2, h3, h4⟩ := h
  refine ⟨h1.popWritten, h2.popWritten, ?_, by simpa [ChunkBuffer.popWritten] using h4⟩
  simp only [ChunkBuffer.popWritten, ChunkBuffer.clearFlush_queue]
  exact (List.dropWhile_suffix _).length_le.trans h3

theorem ChunkBuffer.Sound.mapQueue {b : ChunkBuffer} (h : b.Sound) {f : Chunk → Chunk}
    (hf : ∀ c, (f c).pages = c.pages) : (b.mapQueue f).Sound := by
  obtain ⟨h1, h2, h3, h4⟩ := h
  exact ⟨h1.mapQueue f hf, h2.mapQueue f, by simpa [ChunkBuffer.mapQueue] using h3, h4⟩

theorem ChunkBuffer.Sound.storePayload {b : ChunkBuffer} (h : b.Sound) (pages : List Nat) (bs : List Byte) :
    (b.storePayload pages bs).Sound := by
  obtain ⟨h1, h2, h3, h4⟩ := h
  exact ⟨h1, h2, h3, ramStore_wf _ _ _ _ h4⟩

theorem ChunkBuffer.Sound.create {b : ChunkBuffer} (h : b.Sound) (hd : 0 < b.freeDescriptors) (kind : ChunkKind)
    (key : Bool) (time : Time) (arrival : Option Time) (length : Nat) (state : ChunkState) :
    (b.create kind key time arrival length state).Sound := by
  obtain ⟨h1, h2, h3, h4⟩ := h
  refine ⟨h1.create .., h2.create .., ?_, ramStore_wf _ _ _ _ h4⟩
  unfold ChunkBuffer.freeDescriptors at hd
  simp only [ChunkBuffer.create, List.length_append, List.length_singleton]
  omega

theorem State.keeps_discardFrom (s : State) (q : Word32) : s.Keeps { s with buffer := s.buffer.discardFrom q } :=
  s.keeps_buffer (·.discardFrom q) (fun h => by simp [ChunkBuffer.discardFrom, h])

/-- A descriptor joins the queue of an open clip. -/
theorem State.keeps_grown (s : State) {b : ChunkBuffer} (hi : s.ClipSound → s.clip.state ≠ .idle)
    (h : s.buffer.Sound → b.Sound) : s.Keeps { s with buffer := b } :=
  ⟨⟨h, fun hs => ⟨hs.1, ⟨fun k => absurd k (hi hs), hs.2.1.2⟩, hs.2.2⟩, id, id, le_rfl, id⟩, id⟩

/-! ### The segment table -/

/-- Replacing one slot moves the number of protected slots as it moves the protection of that slot. -/
theorem ClipRecorder.protectedCount_setSlot (c : ClipRecorder) {i : Nat} (hi : i < 64) (x : Slot) :
    (c.setSlot i x).protectedCount =
      (c.protectedCount - if (c.slot i).prot.isSome then 1 else 0) + if x.prot.isSome then 1 else 0 := by
  have key (d : ClipRecorder) : d.protectedCount = d.slots.countP (fun x => x.prot.isSome) := by
    unfold ClipRecorder.protectedCount
    rw [← List.countP_eq_length_filter, Vector.countP_toList]
  have h1 : c.slots.setIfInBounds i x = c.slots.set i x hi := by
    apply Vector.ext; intro j hj; simp [Vector.getElem_setIfInBounds, Vector.getElem_set]
  have h2 : c.slot i = c.slots[i] := by simp [ClipRecorder.slot, hi]
  rw [key, key, h2, ClipRecorder.setSlot, h1]
  exact Vector.countP_set hi

/-- A slot whose protection a replacement does not add keeps the limit; one protected within the limit does too. -/
theorem ClipRecorder.WithinLimit.setSlot {c : ClipRecorder} (h : c.WithinLimit) (i : Nat) (x : Slot)
    (hp : x.prot.isSome → (c.slot i).prot.isSome ∨ c.protectedCount < c.cfg.protectLimit) :
    (c.setSlot i x).WithinLimit := by
  unfold ClipRecorder.WithinLimit at *
  by_cases hi : i < 64
  · rw [c.protectedCount_setSlot hi]
    show _ ≤ c.cfg.protectLimit
    by_cases hx : x.prot.isSome
    · rcases hp hx with hc | hc
      · have hpos : 0 < c.protectedCount := by
          have := c.protectedCount_setSlot hi (c.slot i)
          simp only [hc, if_true] at this
          have hself : (c.setSlot i (c.slot i)).protectedCount = c.protectedCount := by
            unfold ClipRecorder.setSlot; rw [c.setSlot_self]
          omega
        simp only [hc, hx, if_true]; omega
      · simp only [hx, if_true]; omega
    · simp only [hx]; simp; omega
  · rw [c.setSlot_outside (by omega)]; exact h

/-- What a replacement of a slot must keep: it makes no slot FILLING, and adds no protection beyond the limit. -/
def ClipRecorder.Allows (c : ClipRecorder) (i : Nat) (x : Slot) : Prop :=
  (x.state = .filling → (c.slot i).state = .filling) ∧
  (x.prot.isSome → (c.slot i).prot.isSome ∨ c.protectedCount < c.cfg.protectLimit)

theorem ClipRecorder.OneFilling.setSlot {c : ClipRecorder} (h : c.OneFilling) {i : Nat} {x : Slot}
    (hx : c.Allows i x) : (c.setSlot i x).OneFilling := by
  refine ⟨fun j hj => ?_, h.2⟩
  rw [c.setSlot_slot] at hj
  split at hj
  · rename_i hij; rw [← hij.1]; exact h.1 i (hx.1 hj)
  · exact h.1 j hj

theorem State.keeps_setSlot (s : State) {i : Nat} {x : Slot} (hx : s.clip.Allows i x) : s.Keeps (s.setSlot i x) :=
  ⟨⟨id, fun ⟨h1, h2, h3⟩ => ⟨h1.setSlot hx, h2, h3.setSlot i x hx.2⟩, id, id, le_rfl, id⟩, id⟩

/-- The segment being filled leaves FILLING, its slot replaced by one that is not FILLING and no more protected. -/
theorem State.keeps_leaveFilling (s : State) {f : Filling} (hf : s.clip.filling = some f) {x : Slot}
    (hx : x.state ≠ .filling) (hp : x.prot = (s.clip.slot f.slot).prot) (q : Word32) :
    s.Keeps { s with clip := { s.clip.setSlot f.slot x with closeCounter := q, filling := none } } := by
  have ha : s.clip.Allows f.slot x := ⟨fun h => absurd h hx, fun h => .inl (by rwa [hp] at h)⟩
  refine ⟨⟨id, fun ⟨h1, h2, h3⟩ => ⟨⟨fun j hj => ?_, by simp⟩, h2, h3.setSlot f.slot x ha.2⟩, id, id, le_rfl, id⟩, id⟩
  exfalso
  have hj' : ((s.clip.setSlot f.slot x).slot j).state = .filling := hj
  have hm := h1.1 j
  rw [s.clip.setSlot_slot] at hj'
  split at hj'
  · exact hx hj'
  · rename_i hn
    have := hm hj'
    rw [hf] at this
    simp only [Option.map_some, Option.some.injEq] at this
    have hlt : j < 64 := by
      by_contra hge
      rw [s.clip.slot_outside (by omega)] at hj'
      cases hj'
    exact hn ⟨this, hlt⟩

/-- No segment is being filled, or the one that was has left FILLING. -/
def ClipRecorder.Left (c : ClipRecorder) : Prop := ∀ f, c.filling = some f → (c.slot f.slot).state ≠ .filling

theorem ClipRecorder.Left.of_none {c : ClipRecorder} (h : c.filling = none) : c.Left := fun f hf => by simp [h] at hf

/-- Where no segment is being filled any more, no slot is FILLING. -/
theorem ClipRecorder.OneFilling.none_filling {c : ClipRecorder} (h : c.OneFilling) (hl : c.Left) (i : Nat) :
    (c.slot i).state ≠ .filling := by
  intro hi
  have hm := h.1 i hi
  cases hf : c.filling with
  | none => simp [hf] at hm
  | some f =>
    rw [hf] at hm
    simp only [Option.map_some, Option.some.injEq] at hm
    exact hl f hf (by rw [hm]; exact hi)

/-- A slot taken while a clip is open and nothing is being filled. -/
theorem State.keeps_takeSlot (s : State) (hl : s.clip.Left) (ho : s.clip.state.isOpen = true) (i : Nat) :
    s.Keeps (s.takeSlot i) := by
  refine ⟨⟨id, fun ⟨h1, h2, h3⟩ => ⟨⟨fun j hj => ?_, fun _ => ho⟩, h2, ?_⟩, id, id, le_rfl, id⟩, id⟩
  · have hj' : ((s.clip.setSlot i ((s.clip.slot i).taken s.clip.clipNumber s.now)).slot j).state = .filling := hj
    rw [s.clip.setSlot_slot] at hj'
    split at hj'
    · rename_i hij; show some i = some j; rw [hij.1]
    · exact absurd hj' (h1.none_filling hl j)
  · exact h3.setSlot i _ .inl

end Sys2Proof.Machine
end

section
/-! SUPPORT. The clip recorder's operations keep the invariants. -/
namespace Sys2Proof.Machine

variable {s t u : State}

/-! ### The end of a segment and of a clip -/

theorem State.keeps_markUnusable (s : State) (i : Nat) : s.Keeps (s.markUnusable i) :=
  s.keeps_setSlot ⟨fun h => by simp at h, .inl⟩

theorem State.keeps_seekSlot (mode : ClipMode) (ex : Option Nat) (n : Nat) (s : State) :
    s.Keeps (s.seekSlot mode ex n).1 := by
  induction n generalizing s with
  | zero => exact .refl s
  | succ n ih =>
    unfold State.seekSlot
    split
    · exact .refl s
    · split
      · exact (s.keeps_markUnusable _).trans (ih _)
      · exact .refl s

theorem State.keeps_closeSegment (s : State) (r : EndReason) : s.Keeps (s.closeSegment r) := by
  unfold State.closeSegment
  split
  · exact .refl s
  · rename_i f hf
    refine .trans (s.keeps_leaveFilling hf (x := { (s.clip.slot f.slot).left .closed s.now (s.clip.closeCounter + 1) with
      streamLen := if r = .damaged then f.damagedAt.getD f.placement else f.placement, endReason := some r })
      (by simp [Slot.left]) rfl (s.clip.closeCounter + 1)) (State.keeps_raise _ _)

theorem State.closeSegment_filling (s : State) (r : EndReason) : (s.closeSegment r).clip.filling = none := by
  unfold State.closeSegment
  split
  · assumption
  · rfl

@[simp] theorem State.closeSegment_clipState (s : State) (r : EndReason) :
    (s.closeSegment r).clip.state = s.clip.state := by
  unfold State.closeSegment; split <;> rfl

@[simp] theorem State.closeSegment_buffer (s : State) (r : EndReason) : (s.closeSegment r).buffer = s.buffer := by
  unfold State.closeSegment; split <;> rfl

@[simp] theorem State.closeSegment_frame (s : State) (r : EndReason) : (s.closeSegment r).frame = s.frame := by
  unfold State.closeSegment; split <;> rfl

theorem State.keeps_interruptSlot (s : State) : s.Keeps s.interruptSlot := by
  unfold State.interruptSlot
  split
  · exact .refl s
  · rename_i f hf
    exact s.keeps_leaveFilling hf (x := (s.clip.slot f.slot).left .interrupted s.now (s.clip.closeCounter + 1))
      (by simp [Slot.left]) rfl _

theorem State.interruptSlot_filling (s : State) : s.interruptSlot.clip.filling = none := by
  unfold State.interruptSlot
  split
  · assumption
  · rfl

/-- A clip ends with its queue empty, its accumulator closed and nothing being filled. -/
theorem State.keeps_endClip (s : State) (hl : s.clip.Left) (hq : s.buffer.queue = [])
    (ha : s.ClipAtRest → s.frame.accOpen = false) (r : ClipEnd) : s.Keeps (s.endClip r) := by
  refine .trans (t := { s with clip := { s.clip with state := .idle, filling := none } })
    ⟨⟨id, fun ⟨h1, h2, h3⟩ => ⟨⟨fun j hj => absurd hj (h1.none_filling hl j), by simp⟩, ⟨fun _ => hq, fun h => ?_⟩, h3⟩,
      id, id, le_rfl, id⟩, id⟩ (State.keeps_raise _ _)
  rw [show _ = false from ha h2] at h
  cases h

theorem State.keeps_discardAll (s : State) : s.Keeps { s with buffer := s.buffer.discardAll } :=
  s.keeps_buffer (·.discardWhere _) (fun h => by simp [ChunkBuffer.discardAll, ChunkBuffer.discardWhere, h])

theorem ChunkBuffer.discardAll_queue (b : ChunkBuffer) : b.discardAll.queue = [] := by
  simp [ChunkBuffer.discardAll, ChunkBuffer.discardWhere]

theorem State.keeps_closeAcc (s : State) : s.Keeps { s with frame := s.frame.closeAcc } :=
  ⟨⟨id, fun ⟨h1, ⟨h2, _⟩, h4⟩ => ⟨h1, ⟨h2, fun h => by cases h⟩, h4⟩, id, id, le_rfl, id⟩, id⟩

theorem State.keeps_abandonClip (s : State) (hl : s.clip.Left) (r : ClipEnd) : s.Keeps (s.abandonClip r) :=
  (s.keeps_discardAll.trans (State.keeps_closeAcc _)).trans
    (State.keeps_endClip _ (by exact hl) (by exact s.buffer.discardAll_queue) (by exact fun _ => rfl) r)

theorem State.keeps_clipLost (s : State) : s.Keeps s.clipLost := by
  unfold State.clipLost
  split
  · exact s.keeps_interruptSlot.trans (State.keeps_abandonClip _ (.of_none s.interruptSlot_filling) _)
  · exact .refl s

/-! ### Rollover, placement and the stream's end -/

/-- The segment being filled changed in everything but its slot. -/
theorem State.keeps_setFilling (s : State) {f g : Filling} (hf : s.clip.filling = some f) (hg : g.slot = f.slot) :
    s.Keeps (s.setFilling g) :=
  .quiet (by simp [State.guarded, hf, hg]) rfl rfl

/-- An open clip's state changed to another open one; the accumulator may be open in RECORDING and ROLLOVER_WAIT. -/
theorem State.keeps_setClipState (s : State) {x : ClipState} (hx : x ≠ .idle)
    (ha : x = .recording ∨ x = .rolloverWait ∨ x = s.clip.state ∨ s.frame.accOpen = false) :
    s.Keeps (s.setClipState x) := by
  refine ⟨⟨id, fun ⟨h1, ⟨_, h3⟩, h4⟩ => ⟨⟨h1.1, fun _ => ?_⟩, ⟨fun h => absurd h hx, fun h => ?_⟩, h4⟩, id, id, le_rfl, id⟩, id⟩
  · show x.isOpen = true
    cases x <;> simp_all [ClipState.isOpen]
  · show x = .recording ∨ x = .rolloverWait
    have h : s.frame.accOpen = true := h
    rcases ha with ha | ha | ha | ha
    · exact .inl ha
    · exact .inr ha
    · rw [ha]; exact h3 h
    · rw [ha] at h; cases h

@[simp] theorem Filling.endStream_slot (f : Filling) : f.endStream.slot = f.slot := by
  unfold Filling.endStream; split <;> rfl

theorem State.keeps_padMark (s : State) : s.Keeps s.padMark := by
  unfold State.padMark
  split
  · split
    · exact s.keeps_setFilling ‹_› (by simp)
    · exact .refl s
  · exact .refl s

theorem State.keeps_markFlush (s : State) (m : Option Word32) : s.Keeps (s.markFlush m) := by
  unfold State.markFlush
  split
  · exact .refl s
  · exact .quiet rfl rfl rfl

theorem State.keeps_requestFlush (s : State) (m : Option Word32) : s.Keeps (s.requestFlush m) := by
  unfold State.requestFlush
  split
  · exact .refl s
  · exact (s.keeps_markFlush _).trans (State.keeps_padMark _)

theorem State.keeps_beginRollover (s : State) {f : Filling} (hf : s.clip.filling = some f) (c : CloseCause) :
    s.Keeps (s.beginRollover f c) :=
  (s.keeps_setFilling hf (by simp)).trans (State.keeps_requestFlush _ _)

theorem ClipState.resumed_ne_idle (x : ClipState) : x.resumed ≠ .idle := by cases x <;> simp [ClipState.resumed]

/-- The clip goes on in a slot found. -/
theorem State.keeps_resume (s : State) (hl : s.clip.Left) (ho : s.clip.state.isOpen = true) (i : Nat) :
    s.Keeps ((s.takeSlot i).setClipState s.clip.state.resumed) := by
  refine (s.keeps_takeSlot hl ho i).trans (State.keeps_setClipState _ (ClipState.resumed_ne_idle _) ?_)
  show _ ∨ _ ∨ s.clip.state.resumed = s.clip.state ∨ _
  cases s.clip.state <;> simp [ClipState.resumed]

theorem State.drained_isOpen {f : Filling} {c : CloseCause} (h : s.drained = some (f, c)) :
    s.clip.state.isOpen = true := by
  cases hx : s.clip.state
  case idle =>
    unfold State.drained at h
    rw [hx] at h
    split at h
    · cases h
    · split at h <;> cases h
  all_goals rfl

theorem State.keeps_finishRollover (s : State) {f : Filling} {c : CloseCause} (h : s.drained = some (f, c)) :
    s.Keeps (s.finishRollover f c) := by
  have hk := State.keeps_seekSlot s.clip.mode (some f.slot) 65 s
  obtain ⟨-, -, hx, -, -⟩ := s.seekSlot_spec s.clip.mode (some f.slot) 65
  unfold State.finishRollover
  split
  · rename_i s1 i heq
    rw [heq] at hk hx
    have hr := (s1.closeSegment (c.reason true)).keeps_resume (.of_none (s1.closeSegment_filling _))
      (by rw [State.closeSegment_clipState, hx]; exact State.drained_isOpen h) i
    rw [State.closeSegment_clipState] at hr
    exact (hk.trans (s1.keeps_closeSegment (c.reason true))).trans hr
  · rename_i s1 heq
    rw [heq] at hk
    exact (hk.trans (s1.keeps_closeSegment (c.reason false))).trans
      (State.keeps_abandonClip _ (.of_none (s1.closeSegment_filling _)) _)

theorem State.seekSlot_left (mode : ClipMode) (ex : Option Nat) (n : Nat) (s : State) (h : s.clip.Left) :
    (s.seekSlot mode ex n).1.clip.Left := by
  induction n generalizing s with
  | zero => exact h
  | succ n ih =>
    unfold State.seekSlot
    split
    · exact h
    · split
      · refine ih _ fun f hf => ?_
        show ((s.clip.setSlot _ _).slot f.slot).state ≠ .filling
        rw [s.clip.setSlot_slot]
        split
        · simp
        · exact h f hf
      · exact h

/-- Descriptors changed in place, their pages left. -/
theorem State.keeps_mapQueue (s : State) {f : Chunk → Chunk} (hf : ∀ c, (f c).pages = c.pages) :
    s.Keeps { s with buffer := s.buffer.mapQueue f } :=
  s.keeps_buffer (·.mapQueue hf) (fun h => by simp [ChunkBuffer.mapQueue, h])

theorem State.keeps_placeChunk (s : State) {f : Filling} (hf : s.clip.filling = some f) (c : Chunk) :
    s.Keeps (s.placeChunk f c) := by
  unfold State.placeChunk
  simp only
  have h1 : s.Keeps (if f.anyPlaced then s else
      s.setSlot f.slot { s.clip.slot f.slot with firstSeq := some c.seq }) := by
    split
    · exact .refl s
    · exact s.keeps_setSlot ⟨id, .inl⟩
  refine (h1.trans (State.keeps_mapQueue _ ?_)).trans (State.keeps_setFilling _ (f := f) ?_ ?_)
  · intro d; split <;> rfl
  · split <;> exact hf
  · split <;> simp

theorem State.keeps_endStreamAt (s : State) {f g : Filling} (hg : s.clip.filling = some g) (hf : f.slot = g.slot)
    (pos : Nat) : s.Keeps (s.endStreamAt f pos) := by
  unfold State.endStreamAt
  simp only
  have hslot (b : Prop) [Decidable b] (e : Filling) : (if b then e.endStream else e).slot = e.slot := by
    split <;> simp
  split
  · unfold State.noneStanding
    refine .trans (s.keeps_setSlot ⟨?_, ?_⟩) (State.keeps_setFilling _ (f := g) (by exact hg) ((hslot _ _).trans hf))
    · exact id
    · exact .inl
  · exact s.keeps_setFilling hg (by rw [hslot]; exact hf)

theorem State.keeps_emergencyDiscard (s : State) {f : Filling} (hf : s.clip.filling = some f) (q : Word32) :
    s.Keeps (s.emergencyDiscard f q) :=
  (s.keeps_discardFrom q).trans (State.keeps_endStreamAt _ (g := f) (by exact hf) rfl _)

theorem State.keeps_unusableSegment (s : State) {f : Filling} (hf : s.clip.filling = some f)
    (ho : s.clip.state.isOpen = true) (c : Chunk) : s.Keeps (s.unusableSegment f c) := by
  unfold State.unusableSegment
  simp only
  generalize hx : ({ (s.clip.slot f.slot).withoutOptional with state := .unusable, prot := none } : Slot) = x
  have hu : x.state = .unusable ∧ x.prot = none := by rw [← hx]; exact ⟨rfl, rfl⟩
  have h1 : s.Keeps ((s.setSlot f.slot x).raise (.rolloverForced f.slot c.seq)) :=
    (s.keeps_setSlot ⟨fun h => by simp [hu] at h, fun h => by simp [hu] at h⟩).trans (State.keeps_raise _ _)
  have hl1 : ((s.setSlot f.slot x).raise (.rolloverForced f.slot c.seq)).clip.Left := by
    intro g hg
    have hg' : s.clip.filling = some g := hg
    rw [hf] at hg'
    cases hg'
    show ((s.clip.setSlot f.slot x).slot f.slot).state ≠ .filling
    rw [s.clip.setSlot_slot]
    split
    · simp [hu]
    · rename_i hn
      rw [s.clip.slot_outside (by omega)]
      simp
  generalize hs1 : (s.setSlot f.slot x).raise (.rolloverForced f.slot c.seq) = s1 at h1 hl1
  have hx1 : s1.clip.state = s.clip.state := by rw [← hs1]; rfl
  have hk := State.keeps_seekSlot s1.clip.mode none 65 s1
  obtain ⟨-, -, hst, -, -⟩ := s1.seekSlot_spec s1.clip.mode none 65
  have hl2 := State.seekSlot_left s1.clip.mode none 65 s1 hl1
  split
  · rename_i s2 i heq
    rw [heq] at hk hst hl2
    exact (h1.trans hk).trans (s2.keeps_resume hl2 (by rw [hst, hx1]; exact ho) i)
  · rename_i s2 heq
    rw [heq] at hk hl2
    exact (h1.trans hk).trans (s2.keeps_abandonClip hl2 _)

theorem State.keeps_awaitKeyframe (s : State) (f : Filling) : s.Keeps (s.awaitKeyframe f) := by
  unfold State.awaitKeyframe
  split
  · exact s.keeps_setClipState (by simp) (.inr (.inl rfl))
  · exact .refl s

theorem State.awaitKeyframe_isOpen (s : State) (f : Filling) (h : s.clip.state.isOpen = true) :
    (s.awaitKeyframe f).clip.state.isOpen = true := by
  unfold State.awaitKeyframe
  split
  · rfl
  · exact h

theorem State.keeps_judgePlacement (s : State) {f : Filling} {c : Chunk} (h : s.nextPlacement = some (f, c)) :
    s.Keeps (s.judgePlacement f c) := by
  obtain ⟨hf, -, ho, -, -⟩ := State.nextPlacement_spec h
  have hk := s.keeps_awaitKeyframe f
  have ho1 := s.awaitKeyframe_isOpen f ho
  have hf1 := (s.awaitKeyframe_spec f).2.1.trans hf
  unfold State.judgePlacement
  simp only
  generalize s.awaitKeyframe f = s1 at *
  refine hk.trans ?_
  split
  · split
    · exact s1.keeps_placeChunk hf1 c
    · exact s1.keeps_emergencyDiscard hf1 _
  · split
    · exact s1.keeps_beginRollover hf1 _
    · split
      · exact s1.keeps_placeChunk hf1 c
      · split
        · exact (s1.keeps_raise _).trans (State.keeps_beginRollover _ (by exact hf1) _)
        · exact s1.keeps_unusableSegment hf1 ho1 c

/-! ### The standing work -/

theorem State.keeps_advanceClip (n : Nat) (s : State) : s.Keeps (s.advanceClip n) := by
  induction n generalizing s with
  | zero => exact .refl s
  | succ n ih =>
    unfold State.advanceClip
    split
    · exact (s.keeps_finishRollover ‹_›).trans (ih _)
    · split
      · exact (s.keeps_judgePlacement ‹_›).trans (ih _)
      · exact .refl s

/-- Out of RECORDING and ROLLOVER_WAIT the accumulator of a clip at rest is closed. -/
theorem State.ClipAtRest.accClosed {s : State} (h : s.ClipAtRest) (h1 : s.clip.state ≠ .recording)
    (h2 : s.clip.state ≠ .rolloverWait) : s.frame.accOpen = false := by
  cases ha : s.frame.accOpen with
  | false => rfl
  | true => exact absurd (h.2 ha) (by simp [h1, h2])

theorem State.keeps_finishClose (s : State) : s.Keeps s.finishClose := by
  have close (r : EndReason) (e : ClipEnd) (hq : s.buffer.queue = []) (h1 : s.clip.state ≠ .recording)
      (h2 : s.clip.state ≠ .rolloverWait) : s.Keeps ((s.closeSegment r).endClip e) :=
    (s.keeps_closeSegment r).trans (State.keeps_endClip _ (.of_none (s.closeSegment_filling r)) (by simpa using hq)
      (fun h => h.accClosed (by simpa using h1) (by simpa using h2)) e)
  unfold State.finishClose
  split
  · rename_i hq
    rw [List.isEmpty_iff] at hq
    split
    · rename_i hx; exact close _ _ hq (by simp [hx]) (by simp [hx])
    · rename_i hx; exact close _ _ hq (by simp [hx]) (by simp [hx])
    · exact .refl s
  · exact .refl s

theorem State.keeps_settleClip (s : State) : s.Keeps s.settleClip :=
  (State.keeps_advanceClip _ s).trans (State.keeps_finishClose _)

theorem State.keeps_syncBuffer (s : State) : s.Keeps s.syncBuffer :=
  .quiet (by simp [State.guarded]) rfl rfl

theorem State.keeps_syncGrant (s : State) : s.Keeps s.syncGrant := by
  obtain ⟨g, h, hg⟩ := syncGrant_eq s
  rw [h]
  exact ⟨.quiet rfl, fun k hr => hg.1 (k hr)⟩

theorem State.keeps_settle (s : State) : s.Keeps s.settle :=
  (s.keeps_settleClip.trans (State.keeps_syncBuffer _)).trans (State.keeps_syncGrant _)

theorem State.keeps_conclude (s : State) : s.Keeps s.conclude := s.keeps_settle.trans (State.keeps_arbitrate _)

end Sys2Proof.Machine
end

section
/-! SUPPORT. The frame builder's, the card controller's and the link controller's operations keep the invariants. -/
namespace Sys2Proof.Machine

variable {s t u : State}

/-! ### Frame records and motion chunks -/

theorem State.keeps_freeCount (s : State) (n : Nat) : s.Keeps { s with freeCount := n } := .quiet rfl rfl rfl

theorem State.keeps_chooseFree (s : State) {yes no : State → State} (hy : ∀ u : State, u.Keeps (yes u))
    (hn : ∀ u : State, u.Keeps (no u)) : s.Keeps (s.chooseFree yes no) := by
  unfold State.chooseFree
  simp only
  split
  · exact (s.keeps_freeCount _).trans (hy _)
  · exact (s.keeps_freeCount _).trans (hn _)

theorem State.keeps_dropMotion (recs : List FrameRecord) (r : DropReason) (s : State) :
    s.Keeps (s.dropMotion recs r) :=
  .trans (t := { s with buffer := { s.buffer with motionDrop := s.buffer.motionDrop + 1 } }) (.quiet rfl rfl rfl)
    (State.keeps_raise _ _)

/-- A motion chunk joins the queue of an open clip, or is dropped. -/
theorem State.keeps_enqueueMotion (s : State) (hi : s.ClipSound → s.clip.state ≠ .idle) (recs : List FrameRecord) :
    s.Keeps (s.enqueueMotion recs) := by
  unfold State.enqueueMotion
  split
  · rename_i hd _
    exact s.keeps_grown hi (fun h => (h.create (by simpa using hd) ..).storePayload ..)
  · exact s.keeps_dropMotion _ _
  · exact s.keeps_dropMotion _ _
  · exact s.keeps_chooseFree (fun u => u.keeps_dropMotion _ _) (fun u => u.keeps_dropMotion _ _)

/-- The clip whose accumulator is open is open. -/
theorem State.ClipSound.ne_idle (h : s.ClipSound) (ha : s.frame.accOpen = true) : s.clip.state ≠ .idle := by
  rcases h.2.1.2 ha with h | h <;> simp [h]

theorem State.keeps_acc (s : State) (acc : List FrameRecord) : s.Keeps { s with frame := { s.frame with acc := acc } } :=
  .quiet rfl rfl rfl

theorem State.keeps_accumulate (s : State) (r : FrameRecord) : s.Keeps (s.accumulate r) := by
  unfold State.accumulate
  split
  · rename_i ha
    simp only
    split
    · exact (s.keeps_acc []).trans (State.keeps_enqueueMotion _ (by exact fun h => h.ne_idle ha) _)
    · exact s.keeps_acc _
  · exact .refl s

theorem State.keeps_offerRecord (s : State) (r : FrameRecord) : s.Keeps (s.offerRecord r) := by
  unfold State.offerRecord
  split
  · rename_i hl
    refine .trans (t := { s with frame := { s.frame with sendList := s.frame.sendList ++ [r], lastNumber := some r.number } })
      ⟨⟨id, id, id, fun ⟨h1, h2, h3, _⟩ => ⟨h1, h2, h3, ?_⟩, le_rfl, id⟩, id⟩ (State.keeps_accumulate _ r)
    show (s.frame.sendList ++ [r]).length ≤ 8
    rw [List.length_append, List.length_singleton]
    exact hl
  · exact .trans (t := { s with frame := { s.frame with withheld := s.frame.withheld + 1 } }) (.quiet rfl rfl rfl)
      (State.keeps_raise _ _)

/-- The record under construction, the late marks and the frame's progress changed. -/
theorem State.keeps_frame (s : State) {f : FrameBuilder} (hs : f.sendList = s.frame.sendList)
    (ha : f.accOpen = s.frame.accOpen) : s.Keeps { s with frame := f } :=
  .quiet (by simp [State.guarded, hs, ha]) rfl rfl

theorem State.keeps_finishFrame (s : State) : s.Keeps s.finishFrame := by
  unfold State.finishFrame
  split
  · exact .refl s
  · exact (s.keeps_frame (f := { s.frame with record := none }) rfl rfl).trans (State.keeps_offerRecord _ _)

theorem State.keeps_latch (s : State) (b : Nat) : s.Keeps (s.latch b) := s.keeps_frame rfl rfl

theorem State.keeps_latchAll (l : List BandDue) (s : State) : s.Keeps (s.latchAll l) := by
  induction l generalizing s with
  | nil => exact .refl s
  | cons e es ih => exact (s.keeps_latch _).trans (ih _)

theorem State.keeps_capture (s : State) (c : CaptureUnit) : s.Keeps { s with capture := c } := .quiet rfl rfl rfl

theorem State.keeps_imu (s : State) (i : ImuPort) : s.Keeps { s with imu := i } := .quiet rfl rfl rfl

theorem State.keeps_motion (s : State) (m : MotionComputer) : s.Keeps { s with motion := m } := .quiet rfl rfl rfl

theorem State.keeps_expireBand (s : State) : s.Keeps s.expireBand := by
  unfold State.expireBand
  split
  · exact .refl s
  · simp only
    split
    · exact ((s.keeps_capture _).trans (State.keeps_latch _ _)).trans (State.keeps_finishFrame _)
    · exact (s.keeps_capture _).trans (State.keeps_latch _ _)

theorem State.keeps_expireBands (n : Nat) (s : State) : s.Keeps (s.expireBands n) := by
  induction n generalizing s with
  | zero => exact .refl s
  | succ n ih => exact s.keeps_expireBand.trans (ih _)

theorem State.keeps_truncateFrame (s : State) : s.Keeps s.truncateFrame := by
  unfold State.truncateFrame
  split
  · exact .refl s
  · have h1 : s.Keeps (State.latchAll { s with capture := { s.capture with bands := [] } } s.capture.bands) :=
      (s.keeps_capture _).trans (State.keeps_latchAll _ _)
    simp only
    generalize State.latchAll { s with capture := { s.capture with bands := [] } } s.capture.bands = s1 at *
    refine .trans ?_ (State.keeps_finishFrame _)
    exact h1.trans (s1.keeps_frame rfl rfl)

theorem State.keeps_startFrame (s : State) : s.Keeps s.startFrame := by
  unfold State.startFrame
  simp only
  refine .trans ?_ (State.keeps_expireBands _ _)
  exact .quiet rfl rfl rfl

/-- The motion chunk accumulator hands over its records and closes, with a clip open. -/
theorem State.keeps_handOver (s : State) (hi : s.clip.state ≠ .idle) : s.Keeps s.handOver := by
  unfold State.handOver
  simp only
  split
  · exact s.keeps_closeAcc.trans (State.keeps_enqueueMotion _ (fun _ => by exact hi) _)
  · exact s.keeps_closeAcc

theorem State.enqueueMotion_frame (s : State) (recs : List FrameRecord) : (s.enqueueMotion recs).frame = s.frame := by
  unfold State.enqueueMotion State.chooseFree
  repeat' split
  all_goals rfl

theorem State.handOver_accOpen (s : State) : s.handOver.frame.accOpen = false := by
  unfold State.handOver
  simp only
  split
  · rw [State.enqueueMotion_frame]; rfl
  · rfl

/-- The clip recorder's state plays no part in handing over motion chunks. -/
theorem State.enqueueMotion_setClipState (s : State) (x : ClipState) (recs : List FrameRecord) :
    (s.setClipState x).enqueueMotion recs = (s.enqueueMotion recs).setClipState x := by
  unfold State.enqueueMotion State.chooseFree
  rw [State.setClipState_buffer, State.setClipState_freeCount]
  cases decide (0 < s.buffer.freeDescriptors) <;> cases decide (0 < s.buffer.free.length)
  · simp only
    split <;> rfl
  all_goals rfl

theorem State.handOver_setClipState (s : State) (x : ClipState) :
    (s.setClipState x).handOver = s.handOver.setClipState x := by
  unfold State.handOver
  rw [State.setClipState_frame]
  by_cases h : (s.frame.accOpen && !s.frame.acc.isEmpty) = true
  · rw [if_pos h, if_pos h]
    exact State.enqueueMotion_setClipState { s with frame := s.frame.closeAcc } x s.frame.acc
  · rw [if_neg h, if_neg h]
    rfl

/-- A close that hands over the accumulator's records as it begins. -/
theorem State.keeps_beginClose (s : State) (hi : s.clip.state ≠ .idle) {x : ClipState} (hx : x ≠ .idle) :
    s.Keeps (s.setClipState x).handOver := by
  rw [State.handOver_setClipState]
  exact (s.keeps_handOver hi).trans (State.keeps_setClipState _ hx (.inr (.inr (.inr s.handOver_accOpen))))

/-! ### Shock protection -/

theorem State.keeps_protectShock (s : State) (i : Nat) (time : Time) : s.Keeps (s.protectShock i time) := by
  unfold State.protectShock
  simp only
  split
  · exact .refl s
  · split
    · exact s.keeps_setSlot ⟨id, fun _ => .inr ‹_›⟩
    · exact .trans (t := { s with clip := { s.clip with protectRefused := s.clip.protectRefused + 1 } })
        (.quiet rfl rfl rfl) (State.keeps_raise _ _)

theorem State.keeps_shockFilling (s : State) (time : Time) : s.Keeps (s.shockFilling time) := by
  unfold State.shockFilling
  split
  · exact .refl s
  · exact .trans (s.keeps_setSlot ⟨by exact id, by exact .inl⟩) (State.keeps_protectShock _ _ _)

theorem State.keeps_shockPrevious (s : State) (time : Time) : s.Keeps (s.shockPrevious time) := by
  unfold State.shockPrevious
  split
  · exact .refl s
  · split
    · exact s.keeps_protectShock _ _
    · exact .refl s

/-- A shock event changes of the card controller its shock hold at most. -/
theorem State.startShockHold_eq (s : State) (time : Time) :
    ∃ d, s.startShockHold time = { s with card := { s.card with shockHold := d } } := by
  unfold State.startShockHold
  simp only
  split
  all_goals
    split
    · exact ⟨s.card.shockHold, rfl⟩
    · exact ⟨_, rfl⟩

theorem State.keeps_startShockHold (s : State) (time : Time) : s.Keeps (s.startShockHold time) := by
  obtain ⟨d, h⟩ := s.startShockHold_eq time
  rw [h]
  exact .quiet rfl rfl rfl

theorem FrameBuilder.mark_lists (f : FrameBuilder) (m : Marks) :
    (f.mark m).sendList = f.sendList ∧ (f.mark m).accOpen = f.accOpen := by
  unfold FrameBuilder.mark
  split
  · exact ⟨rfl, rfl⟩
  · split <;> exact ⟨rfl, rfl⟩

theorem FrameBuilder.shockMark_lists (f : FrameBuilder) :
    f.shockMark.sendList = f.sendList ∧ f.shockMark.accOpen = f.accOpen := by
  unfold FrameBuilder.shockMark
  split
  · exact ⟨rfl, rfl⟩
  · split <;> exact ⟨rfl, rfl⟩

theorem State.keeps_shockEvent (s : State) (time : Time) : s.Keeps (s.shockEvent time) := by
  unfold State.shockEvent State.shockProtect
  obtain ⟨hs, ha⟩ := s.frame.shockMark_lists
  simp only
  refine .trans (.trans (.trans (.trans ?_ (State.keeps_raise _ _)) (State.keeps_shockFilling _ _))
    (State.keeps_shockPrevious _ _)) (State.keeps_startShockHold _ _)
  exact .quiet (by simp [State.guarded, hs, ha]) rfl rfl

theorem State.keeps_processSample (s : State) (x : Sample) : s.Keeps (s.processSample x) := by
  obtain ⟨hs, ha⟩ := s.frame.mark_lists (s.motion.sampleMarks x s.imu.cfg)
  have h1 : s.Keeps { s with
      motion := s.motion.afterSample x s.imu.cfg
      frame := s.frame.mark (s.motion.sampleMarks x s.imu.cfg) } :=
    .quiet (by simp [State.guarded, hs, ha]) rfl rfl
  unfold State.processSample
  simp only
  split
  · exact h1.trans (State.keeps_shockEvent _ _)
  · exact h1

/-! ### The card's lists -/

theorem CardController.logAdd_bounded {c : CardController} (h : c.Bounded) (k : LogKind) (a : Nat) (i : Option Nat)
    (n : Nat) (now : Time) : (c.logAdd k a i n now).Bounded := by
  obtain ⟨h1, h2, h3⟩ := h
  unfold CardController.logAdd
  simp only
  split
  · exact ⟨h1, by simp; omega, h3⟩
  · exact ⟨h1, by simp; omega, h3⟩

theorem CardController.logAdd_state (c : CardController) (k : LogKind) (a : Nat) (i : Option Nat) (n : Nat) (now : Time) :
    (c.logAdd k a i n now).state = c.state := by
  unfold CardController.logAdd; simp only; split <;> rfl

theorem CardController.logAdd_suppressed (c : CardController) (k : LogKind) (a : Nat) (i : Option Nat) (n : Nat)
    (now : Time) : (c.logAdd k a i n now).suppressed = c.suppressed := by
  unfold CardController.logAdd; simp only; split <;> rfl

theorem CardController.joinBad_bounded {c : CardController} (h : c.Bounded) (g a i : Nat) (now : Time) :
    (c.joinBad g a i now).Bounded := by
  obtain ⟨h1, h2, h3⟩ := h
  unfold CardController.joinBad
  split
  · exact ⟨h1, h2, h3⟩
  · rename_i hc
    simp only [Bool.or_eq_true, decide_eq_true_eq, not_or] at hc
    exact ⟨by simp; omega, h2, h3⟩

theorem CardController.joinBad_state (c : CardController) (g a i : Nat) (now : Time) :
    (c.joinBad g a i now).state = c.state := by
  unfold CardController.joinBad; split <;> rfl

/-- An update of the card controller that keeps its lists to their sizes. -/
theorem State.keepsBut_card (s : State) {c : CardController} (h : s.card.Bounded → c.Bounded) :
    s.KeepsBut { s with card := c } := ⟨id, id, h, id, le_rfl, id⟩

theorem State.keeps_card (s : State) {c : CardController} (h : s.card.Bounded → c.Bounded)
    (hc : c.state = s.card.state) : s.Keeps { s with card := c } :=
  ⟨s.keepsBut_card h, fun k => by unfold State.RunGranted at *; rwa [hc]⟩

theorem State.keeps_logError (s : State) (k : LogKind) (a : Nat) (i : Option Nat) (n : Nat) :
    s.Keeps (s.logError k a i n) :=
  (s.keeps_card (fun h => CardController.logAdd_bounded h k a i n s.now) (CardController.logAdd_state ..)).trans
    (State.keeps_raise _ _)

theorem State.keeps_correctable (s : State) (a i n : Nat) : s.Keeps (s.correctable a i n) := by
  unfold State.correctable
  simp only
  split
  · exact .quiet rfl rfl rfl
  · rename_i hc
    simp only [Bool.or_eq_true, decide_eq_true_eq, not_or] at hc
    refine s.keeps_card (fun h => ?_) (CardController.logAdd_state ..)
    obtain ⟨h1, h2, h3⟩ := CardController.logAdd_bounded
      (c := { s.card with corrected := s.card.corrected + 1 }) h .corrected a (s.loggedSlot i) n s.now
    refine ⟨h1, h2, ?_⟩
    rw [CardController.logAdd_suppressed] at h3
    simp [CardController.logAdd_suppressed]
    omega

/-! ### The card bus, identification and runs -/

theorem State.keeps_send (s : State) (op : CardOp) : s.Keeps (s.send op) := .quiet rfl rfl rfl

theorem State.keeps_clearBus (s : State) : s.Keeps s.clearBus := .quiet rfl rfl rfl

theorem State.keeps_setRun (s : State) (r : Run) : s.Keeps (s.setRun r) := .quiet rfl rfl rfl

/-- The card's state changed to one outside RUN. -/
theorem State.keeps_setCardState (s : State) {x : CardState} (hx : x ≠ .run) : s.Keeps (s.setCardState x) :=
  State.KeepsBut.outside (.quiet rfl) hx

theorem State.keeps_sendSleep (s : State) : s.Keeps s.sendSleep :=
  (s.keeps_setCardState (by simp)).trans (State.keeps_send _ _)

theorem State.keeps_leaveRun (s : State) : s.Keeps s.leaveRun := by
  rw [State.leaveRun_eq]
  exact State.KeepsBut.outside (.quiet rfl) (by simp)

/-- What the end of a run keeps, whatever became of the grant before it. -/
theorem State.KeepsBut.leaveRun (h : s.KeepsBut t) : s.Keeps t.leaveRun :=
  (h.trans t.keeps_leaveRun.toKeepsBut).outside (by rw [State.leaveRun_eq]; simp)

theorem State.keepsBut_abandonCard (s : State) : s.KeepsBut s.abandonCard := .quiet rfl

theorem State.clipLost_card (s : State) : s.clipLost.card = s.card := by
  unfold State.clipLost State.interruptSlot
  split
  · split <;> rfl
  · rfl

theorem State.KeepsBut.enterFault (h : s.KeepsBut t) : s.Keeps t.enterFault := by
  refine (h.trans ?_).outside (by unfold State.enterFault; rw [State.clipLost_card]; simp)
  exact .trans (.quiet (t := t.abandonCard.setCardState .fault) rfl) (State.keeps_clipLost _).toKeepsBut

theorem State.KeepsBut.beginInit (h : s.KeepsBut t) (o : IdentOrigin) (a : Bool) : s.Keeps (t.beginInit o a) :=
  State.KeepsBut.outside (h.trans (.quiet rfl)) (by simp [State.beginInit])

theorem State.KeepsBut.beginRecover (h : s.KeepsBut t) : s.Keeps t.beginRecover :=
  State.KeepsBut.outside (h.trans (.quiet rfl)) (by simp [State.beginRecover])

theorem State.keeps_tryFails (s : State) (i : Identification) : s.Keeps (s.tryFails i) := by
  unfold State.tryFails
  split
  · exact (State.KeepsBut.enterFault (State.Keeps.refl s).toKeepsBut).trans (State.keeps_logError _ _ _ _ _)
  · exact .quiet rfl rfl rfl

theorem State.keeps_becomeReady (s : State) : s.Keeps s.becomeReady := by
  have h : s.Keeps ((State.clearBus { s with card := { s.card with ident := none } }).setCardState .ready) :=
    State.KeepsBut.outside (.quiet rfl) (by simp)
  unfold State.becomeReady
  simp only
  split
  · exact h.trans (State.keeps_sendSleep _)
  · exact h

theorem State.keeps_initSucceeds (s : State) (i : Identification) (cap : Word32) : s.Keeps (s.initSucceeds i cap) := by
  unfold State.initSucceeds
  refine ((s.keeps_card (fun h => ?_) ?_).trans (State.keeps_becomeReady _)).trans (State.keeps_raiseIf _ _ _)
  · obtain ⟨h1, h2, h3⟩ := h
    unfold CardController.identified
    simp only
    split
    · exact ⟨by simp, h2, by simp⟩
    · exact ⟨h1, h2, h3⟩
  · unfold CardController.identified; simp only; split <;> rfl

theorem State.keeps_judgeTry (s : State) (ready : Bool) : s.Keeps (s.judgeTry ready) := by
  unfold State.judgeTry
  split
  · exact .refl s
  · split
    · split
      · split
        · exact s.keeps_becomeReady
        · exact s.keeps_tryFails _
      · exact s.keeps_initSucceeds _ _
    · exact s.keeps_tryFails _

theorem State.keeps_openRun (s : State) : s.Keeps s.openRun := by
  unfold State.openRun
  split
  · exact s.keeps_leaveRun
  · split
    · exact (s.keeps_setRun _).trans (State.keeps_send _ _)
    · exact s.keeps_leaveRun

theorem State.runGranted_held (h : s.runGranted = true) : s.budget.grant = .held := by
  unfold State.runGranted at h
  simp only [Bool.and_eq_true, decide_eq_true_eq] at h
  exact h.1.1

theorem State.keeps_enterRunState (s : State) (h : s.runGranted = true) : s.Keeps s.enterRunState := by
  have h1 : s.Keeps (s.setCardState .run) := ⟨.quiet rfl, fun _ _ => by
    exact State.runGranted_held (s := s) h⟩
  unfold State.enterRunState
  simp only
  split
  · exact h1.trans (State.keeps_send _ _)
  · exact h1.trans (State.keeps_openRun _)

theorem State.keeps_enterGranted (s : State) : s.Keeps s.enterGranted := by
  unfold State.enterGranted
  split
  · exact s.keeps_enterRunState ‹_›
  · exact .refl s

theorem State.keeps_closeRun (s : State) (r : Run) (a : AfterClose) : s.Keeps (s.closeRun r a) := .quiet rfl rfl rfl

theorem State.keeps_nextBlock (s : State) (r : Run) : s.Keeps (s.nextBlock r) := by
  unfold State.nextBlock
  split
  · exact s.keeps_closeRun _ _
  · split
    · exact (s.keeps_setRun _).trans (State.keeps_send _ _)
    · exact s.keeps_closeRun _ _

theorem State.keeps_retryRun (s : State) (r : Run) : s.Keeps (s.retryRun r) := by
  unfold State.retryRun
  split
  · exact (s.keeps_setRun _).trans (State.keeps_clearBus _)
  · exact (s.keeps_setRun _).trans (State.keeps_send _ _)

/-! ### Blocks acknowledged and blocks given up -/

theorem Chunk.credit_pages (n : Nat) (c : Chunk) : (c.credit n).pages = c.pages := by
  unfold Chunk.credit; split <;> rfl

theorem State.keeps_ackBlock (s : State) (slot n : Nat) : s.Keeps (s.ackBlock slot n) := by
  unfold State.ackBlock
  split
  · exact .refl s
  · rename_i f hf
    split
    · simp only
      refine .trans (.trans (s.keeps_setSlot (i := f.slot) ⟨?_, ?_⟩) (State.keeps_buffer _ ?_ ?_))
        (State.keeps_setFilling _ (f := f) ?_ rfl)
      · split <;> exact id
      · split <;> exact .inl
      · exact fun h => (ChunkBuffer.Sound.mapQueue h (Chunk.credit_pages n)).popWritten
      · intro h
        have h : s.buffer.queue = [] := h
        simp [ChunkBuffer.popWritten, ChunkBuffer.mapQueue, h]
      · exact hf
    · exact .refl s

theorem withdrawFrom_pages (q : List Chunk) (i : Nat) : (withdrawFrom q i).map Chunk.pages = q.map Chunk.pages := by
  unfold withdrawFrom
  conv_rhs => rw [← List.take_append_drop i q]
  simp [Function.comp_def]

theorem State.keeps_damageAt (s : State) {f g : Filling} (hg : s.clip.filling = some g) (hf : f.slot = g.slot)
    (c : Chunk) : s.Keeps (s.damageAt f c) := by
  unfold State.damageAt
  simp only
  have h1 : s.Keeps { s with buffer := if s.clip.state = .emergency then s.buffer.discardFrom c.seq
      else { s.buffer with queue := withdrawFrom s.buffer.queue (s.buffer.indexOf c.seq) } } := by
    split
    · exact s.keeps_discardFrom _
    · exact .quiet (by simp [State.guarded, withdrawFrom_pages]) rfl rfl
  exact (h1.trans (State.keeps_endStreamAt _ (g := g) (by exact hg) (by exact hf) _)).trans (State.keeps_markFlush _ _)

theorem State.keeps_skipGranule (s : State) (slot g o : Nat) (j : Bool) : s.Keeps (s.skipGranule slot g o j) := by
  unfold State.skipGranule
  split
  · exact .refl s
  · rename_i f hf
    split
    · rename_i hs
      simp only
      split
      · have h1 : s.Keeps (State.setFilling (s.setSlot slot { s.clip.slot slot with
            skips := (s.clip.slot slot).skips ++ [(g, o)] })
            { f with contrib := f.contrib.set (g - (s.clip.slot slot).first) o }) :=
          (s.keeps_setSlot ⟨by exact id, by exact .inl⟩).trans (State.keeps_setFilling _ (f := f) (by exact hf) rfl)
        split
        · exact h1
        · exact h1.trans (State.keeps_damageAt _ rfl rfl _)
      · split
        · exact .refl s
        · exact s.keeps_damageAt hf rfl _
    · exact .refl s

theorem State.keeps_giveUpBlock (s : State) (r : Run) : s.Keeps (s.giveUpBlock r) := by
  unfold State.giveUpBlock
  simp only
  exact ((s.keeps_card (fun h => CardController.joinBad_bounded h _ _ _ _) (CardController.joinBad_state ..)).trans
    (State.keeps_logError _ _ _ _ _)).trans (State.keeps_skipGranule _ _ _ _ _)

theorem State.keeps_skipBlock (s : State) (r : Run) : s.Keeps (s.skipBlock r) :=
  (s.keeps_giveUpBlock r).trans (State.keeps_settleClip _)

theorem State.keeps_runClosed (s : State) (r : Run) : s.Keeps (s.runClosed r) := by
  unfold State.runClosed
  split
  · exact s.keeps_leaveRun
  · exact s.keeps_retryRun r
  · refine State.KeepsBut.leaveRun ?_
    have h : s.KeepsBut (s.setGrant .none) := .quiet rfl
    exact (h.trans (State.keeps_skipBlock _ r).toKeepsBut).trans (State.keeps_syncBuffer _).toKeepsBut

theorem State.keeps_blockDone (s : State) (r : Run) : s.Keeps (s.blockDone r) := by
  have h1 : s.Keeps (if r.attempts = 0 then s else s.correctable r.current r.slot (r.attempts + 1)) := by
    split
    · exact .refl s
    · exact s.keeps_correctable _ _ _
  unfold State.blockDone
  simp only
  generalize (if r.attempts = 0 then s else s.correctable r.current r.slot (r.attempts + 1)) = s1 at *
  refine .trans (.trans (.trans ?_ (State.keeps_ackBlock _ _ _)) (State.keeps_settleClip _)) (State.keeps_nextBlock _ _)
  exact h1.trans (.quiet rfl rfl rfl)

/-! ### Timeouts, removal and CLAIM -/

/-- Whatever is done with the block that an entry names. -/
theorem State.withRunBlock_cases {P : State → Prop} {k : Nat → Option Nat → State → State} (s : State)
    (h : ∀ a i n, P (k a i { s with freeCount := n })) : P (s.withRunBlock k) := by
  unfold State.withRunBlock
  split
  · split
    · exact h _ _ _
    · exact h _ _ s.freeCount
  · exact h _ _ s.freeCount

theorem State.KeepsBut.countTimeout (h : s.KeepsBut t) : s.Keeps t.countTimeout := by
  have h1 := h.trans (t.keeps_card (c := { t.card with recovery := t.card.recovery + 1 }) id rfl).toKeepsBut
  unfold State.countTimeout
  simp only
  split
  · exact h1.enterFault
  · exact h1.beginRecover

theorem State.keeps_timeout (s : State) (k : LogKind) (a : Nat) (i : Option Nat) : s.Keeps (s.timeout k a i) :=
  (s.keepsBut_abandonCard.trans (State.keeps_logError _ _ _ _ _).toKeepsBut).countTimeout

theorem State.keeps_runTimeout (s : State) (k : LogKind) : s.Keeps (s.runTimeout k) :=
  s.withRunBlock_cases (fun a i n => (s.keeps_freeCount n).trans (State.keeps_timeout _ k a i))

theorem State.keeps_closeTimeout (s : State) : s.Keeps s.closeTimeout := by
  unfold State.closeTimeout
  split
  · exact s.keeps_runTimeout _
  · split
    · exact s.keeps_chooseFree (fun u => (u.keeps_skipBlock _).trans (State.keeps_runTimeout _ _))
        (fun u => (u.keeps_runTimeout _).trans (State.keeps_skipBlock _ _))
    · exact s.keeps_runTimeout _

theorem State.keeps_commandTimeout (s : State) (op : CardOp) : s.Keeps (s.commandTimeout op) := by
  have fails (i : Identification) : s.Keeps (s.clearBus.tryFails i) := s.keeps_clearBus.trans (State.keeps_tryFails _ i)
  unfold State.commandTimeout
  split
  · split
    · exact .refl s
    · exact fails _
  · split
    · exact .refl s
    · exact fails _
  · split
    · exact fails _
    · exact s.keeps_timeout _ _ _
  · exact s.keeps_timeout _ _ _
  · exact s.keeps_runTimeout _
  · exact s.keeps_runTimeout _
  · exact s.keeps_closeTimeout
  · exact .refl s

theorem State.keeps_logRemoval (s : State) : s.Keeps s.logRemoval := by
  unfold State.logRemoval
  split
  · exact s.withRunBlock_cases (fun a i n => (s.keeps_freeCount n).trans (State.keeps_logError _ _ _ _ _))
  · exact s.keeps_logError _ _ _ _

theorem State.keeps_removeCard (s : State) : s.Keeps s.removeCard := by
  have h1 : s.Keeps (if s.removalLogged then s.logRemoval else s) := by
    split
    · exact s.keeps_logRemoval
    · exact .refl s
  unfold State.removeCard
  simp only
  generalize (if s.removalLogged then s.logRemoval else s) = s1 at *
  refine .trans ?_ (State.keeps_clipLost _)
  refine State.KeepsBut.outside (h1.toKeepsBut.trans (.quiet rfl)) ?_
  simp only
  split <;> simp

theorem State.keeps_yieldCard (s : State) : s.Keeps s.yieldCard := by
  unfold State.yieldCard
  refine .trans ?_ (State.keeps_raise _ _)
  exact State.KeepsBut.outside (.quiet rfl) (by simp)

theorem State.keeps_takeBack (s : State) : s.Keeps s.takeBack := by
  have h : s.Keeps { s with card := { s.card with leftAsleep := false } } := .quiet rfl rfl rfl
  unfold State.takeBack
  simp only
  split
  · exact h.toKeepsBut.beginInit _ _
  · exact h.trans (State.keeps_setCardState _ (by simp))

theorem State.keeps_setPresence (s : State) (b : Bool) : s.Keeps (s.setPresence b) :=
  (s.keeps_card (c := { s.card with present := b, settleDue := none }) id rfl).trans (State.keeps_raise _ _)

theorem State.keeps_endShockHold (s : State) : s.Keeps s.endShockHold := by
  have h : s.Keeps { s with card := { s.card with shockHold := none } } := .quiet rfl rfl rfl
  unfold State.endShockHold
  simp only
  split
  · split
    · exact h.trans (State.keeps_retryRun _ _)
    · exact h
  · exact h

end Sys2Proof.Machine
end

section
/-! SUPPORT. Charging keeps the invariants: the setpoint stays under the ceiling of the stage in force, and the rest is
as it was. -/
namespace Sys2Proof.Machine

variable {s t u : State}

/-! ### The ceiling -/

theorem truncDiv_two_nonneg {v : Int} (h : 0 ≤ v) : 0 ≤ truncDiv v 2 := Int.tdiv_nonneg h (by decide)

/-- No zone's current limit is negative. -/
theorem ChargeProfile.NonNegative.zoneCurrent {p : ChargeProfile} (h : p.NonNegative) (z : Option Zone) :
    0 ≤ p.zoneCurrent z := by
  obtain ⟨h1, h2, h3, -⟩ := h
  unfold ChargeProfile.zoneCurrent
  split
  · exact h1
  · exact h2
  · exact h3
  all_goals exact le_rfl

/-- The ceiling of a stage is never negative. -/
theorem ChargeController.stageCeiling_nonneg {c : ChargeController} (h : c.profile.NonNegative) :
    0 ≤ c.stageCeiling := by
  have hz := h.zoneCurrent c.zone
  obtain ⟨-, -, -, hp, -⟩ := h
  have base : 0 ≤ (match c.stage with
      | .precharge => min (c.profile.zoneCurrent c.zone) c.profile.preCurrent
      | .fast | .taper | .topOff => c.profile.zoneCurrent c.zone
      | .idle | .qualify | .full | .hold | .fault => 0) := by
    split
    · exact le_min hz hp
    iterate 3 · exact hz
    all_goals exact le_rfl
  unfold ChargeController.stageCeiling
  simp only
  split
  · exact truncDiv_two_nonneg base
  · exact base

/-- A stage at rest has the ceiling 0. -/
theorem ChargeController.stageCeiling_rest {c : ChargeController} (h : c.stage.isRest = true) : c.stageCeiling = 0 := by
  unfold ChargeController.stageCeiling
  cases hs : c.stage <;> simp_all [Stage.isRest, truncDiv]

/-- With the ceiling handed over, a setpoint of 0 is under it. -/
theorem State.SetpointBounded.of_zero (hp : s.charge.profile.NonNegative) (h0 : s.budget.setpoint = 0) :
    s.updateCeiling.SetpointBounded :=
  ⟨hp, rfl, by simp [h0], by
    show s.budget.setpoint ≤ s.charge.stageCeiling
    rw [h0]; exact ChargeController.stageCeiling_nonneg hp⟩

/-! ### What the charge controller's operations leave -/

/-- A state with the charge controller and the setpoint of another. -/
def State.withPowerOf (t s : State) : State :=
  { t with charge := s.charge, budget := { t.budget with setpoint := s.budget.setpoint } }

/-- Nothing but the charge controller, the budget and the notice set differs. -/
def State.PowerOnly (s t : State) : Prop :=
  ∃ ns, t = { s with charge := t.charge, budget := t.budget, link := { s.link with notices := ns } }

theorem State.PowerOnly.refl (s : State) : s.PowerOnly s := ⟨s.link.notices, rfl⟩

theorem State.PowerOnly.trans (h : s.PowerOnly t) (k : t.PowerOnly u) : s.PowerOnly u := by
  obtain ⟨n1, h⟩ := h
  obtain ⟨n2, k⟩ := k
  exact ⟨n2, by rw [k, h]⟩

theorem State.PowerOnly.budget (h : s.PowerOnly t) (b : Budget) : s.PowerOnly { t with budget := b } :=
  h.trans ⟨_, rfl⟩

theorem State.PowerOnly.buffer (h : s.PowerOnly t) : t.buffer = s.buffer := by
  obtain ⟨ns, h⟩ := h
  rw [h]

/-- An update of the charge controller: it keeps the profile, leaves the setpoint or takes it to 0, and keeps the other
invariants. -/
structure State.Charges (s t : State) : Prop where
  rest : s.Keeps (t.withPowerOf s)
  profile : t.charge.profile = s.charge.profile
  setpoint : t.budget.setpoint = s.budget.setpoint ∨ t.budget.setpoint = 0
  only : s.PowerOnly t

@[simp] theorem State.Charges.refl (s : State) : s.Charges s := ⟨.refl s, rfl, .inl rfl, .refl s⟩

theorem State.Charges.trans (h : s.Charges t) (k : t.Charges u) : s.Charges u := by
  refine ⟨⟨⟨k.rest.buffer ∘ h.rest.buffer, k.rest.clip ∘ h.rest.clip, k.rest.card ∘ h.rest.card,
    k.rest.link ∘ h.rest.link, k.rest.waiting.trans h.rest.waiting, id⟩, k.rest.run ∘ h.rest.run⟩,
    k.profile.trans h.profile, ?_, h.only.trans k.only⟩
  rcases k.setpoint with hk | hk
  · rw [hk]; exact h.setpoint
  · exact .inr hk

/-- An update of the charge controller whose result has its setpoint bounded keeps every invariant. -/
theorem State.Charges.keeps (h : s.Charges t) (hp : s.SetpointBounded → t.SetpointBounded) : s.Keeps t :=
  ⟨⟨h.rest.buffer, h.rest.clip, h.rest.card, h.rest.link, h.rest.waiting, hp⟩, h.rest.run⟩

theorem State.charges_raiseIf (s : State) (b : Bool) (n : Notice) : s.Charges (s.raiseIf b n) := by
  unfold State.raiseIf
  split
  · exact ⟨s.keeps_raise n, rfl, .inl rfl, _, rfl⟩
  · exact .refl s

/-- The charge controller replaced, its profile kept. -/
theorem State.charges_charge (s : State) {c : ChargeController} (h : c.profile = s.charge.profile) :
    s.Charges { s with charge := c } := ⟨.quiet rfl rfl rfl, h, .inl rfl, _, rfl⟩

theorem Budget.onEnter_grant (b : Budget) (x : Stage) : (b.onEnter x).grant = b.grant := by
  unfold Budget.onEnter; simp only; split <;> split <;> rfl

theorem Budget.onEnter_setpoint (b : Budget) (x : Stage) :
    (b.onEnter x).setpoint = if x.isRest then 0 else b.setpoint := by
  unfold Budget.onEnter; simp only; split <;> split <;> rfl

theorem State.charges_enterStage (s : State) (x : Stage) (n : Nat) (f : Option ChargeFault) :
    s.Charges (s.enterStage x n f) := by
  unfold State.enterStage
  simp only
  refine .trans ?_ (State.charges_raiseIf _ _ _)
  refine ⟨.quiet rfl rfl (by exact Budget.onEnter_grant _ _), rfl, ?_, s.link.notices, rfl⟩
  show (s.budget.onEnter x).setpoint = _ ∨ (s.budget.onEnter x).setpoint = 0
  rw [Budget.onEnter_setpoint]
  split
  · exact .inr rfl
  · exact .inl rfl

/-- Entering a stage at rest takes the setpoint to 0. -/
theorem State.enterStage_setpoint (s : State) {x : Stage} (hx : x.isRest = true) (n : Nat) (f : Option ChargeFault) :
    (s.enterStage x n f).budget.setpoint = 0 := by
  have h : (s.budget.onEnter x).setpoint = 0 := by rw [Budget.onEnter_setpoint, if_pos hx]
  unfold State.enterStage State.raiseIf
  simp only
  split <;> exact h

theorem State.charges_enterIdle (s : State) : s.Charges s.enterIdle :=
  (s.charges_charge (by rfl)).trans (State.charges_enterStage _ _ _ _)

theorem State.charges_enterHold (s : State) : s.Charges s.enterHold :=
  (s.charges_charge (by rfl)).trans (State.charges_enterStage _ _ _ _)

theorem State.enterHold_setpoint (s : State) : s.enterHold.budget.setpoint = 0 :=
  State.enterStage_setpoint _ rfl _ _

theorem State.charges_leaveHold (s : State) : s.Charges s.leaveHold := s.charges_enterStage _ _ _

theorem State.charges_setCounts (s : State) (r e : Nat) : s.Charges (s.setCounts r e) := s.charges_charge rfl

/-! ### The stage decision and the update -/

theorem State.charges_stageTest (s : State) : s.Charges s.stageTest := by
  unfold State.stageTest
  split
  · unfold State.testQualify
    simp only
    split
    · exact s.charges_setCounts _ _
    · split
      · exact s.charges_enterStage _ _ _
      · split <;> exact s.charges_enterStage _ _ _
  · unfold State.testPrecharge
    extract_lets run
    split
    · exact s.charges_enterStage _ _ _
    · split
      · exact s.charges_enterStage _ _ _
      · exact s.charges_setCounts _ _
  · unfold State.testFast
    split
    · exact .refl s
    · extract_lets run
      split
      · exact s.charges_enterStage _ _ _
      · exact s.charges_setCounts _ _
  · unfold State.testTaper
    extract_lets term run
    split
    · exact s.charges_enterStage _ _ _
    · exact s.charges_setCounts _ _
  · unfold State.testTopOff
    split
    · exact s.charges_enterStage _ _ _
    · exact s.charges_setCounts _ _
  · unfold State.testFull
    split
    · exact .refl s
    · split
      · exact (s.charges_charge (by rfl)).trans (State.charges_enterStage _ _ _ _)
      · exact .refl s
  all_goals exact .refl s

theorem State.charges_addSafety (s : State) : s.Charges s.addSafety := by
  unfold State.addSafety
  split
  · exact s.charges_charge rfl
  · exact .refl s

theorem State.charges_decideCharging (s : State) : s.Charges s.decideCharging := by
  have h1 := s.charges_addSafety
  unfold State.decideCharging
  simp only
  split
  · exact h1.trans (State.charges_enterStage _ _ _ _)
  · split
    · split
      · exact h1
      · exact h1.trans (State.charges_leaveHold _)
    · split
      · exact h1.trans (State.charges_enterHold _)
      · exact h1.trans (State.charges_stageTest _)

theorem State.charges_decideStage (s : State) : s.Charges s.decideStage := by
  unfold State.decideStage
  split
  · split
    · split
      · exact s.charges_enterHold
      · exact s.charges_enterStage _ _ _
    · exact .refl s
  · split
    · exact s.charges_decideCharging
    · exact s.charges_enterIdle

theorem ChargeController.settle_profile (c : ChargeController) (r : Readings) : (c.settle r).profile = c.profile := rfl

theorem State.charges_updateCeiling (s : State) : s.Charges s.updateCeiling := s.charges_charge rfl

theorem State.charges_chargeUpdate (s : State) : s.Charges s.chargeUpdate := by
  unfold State.chargeUpdate
  simp only
  refine .trans (.trans (.trans ?_ (State.charges_raiseIf _ _ _)) (State.charges_decideStage _))
    (State.charges_updateCeiling _)
  exact s.charges_charge (s.charge.settle_profile _)

/-- The budget replaced, its setpoint and its grant kept. -/
theorem State.charges_budget (s : State) {b : Budget} (h : b.setpoint = s.budget.setpoint)
    (hg : s.budget.grant = .held → b.grant = .held) : s.Charges { s with budget := b } :=
  ⟨⟨.quiet rfl, fun k hr => hg (k hr)⟩, rfl, .inl h, _, rfl⟩

theorem Budget.settleInput_frame (b : Budget) (v : Int) :
    (b.settleInput v).setpoint = b.setpoint ∧ (b.settleInput v).grant = b.grant := by
  unfold Budget.settleInput; repeat' split
  all_goals exact ⟨rfl, rfl⟩

theorem Budget.gaugeUpdate_frame (b : Budget) :
    b.gaugeUpdate.setpoint = b.setpoint ∧ b.gaugeUpdate.grant = b.grant := by
  unfold Budget.gaugeUpdate; split <;> exact ⟨rfl, rfl⟩

theorem Budget.judgeLow_frame (b : Budget) : b.judgeLow.setpoint = b.setpoint ∧ b.judgeLow.grant = b.grant := by
  unfold Budget.judgeLow; split <;> exact ⟨rfl, rfl⟩

theorem Budget.decideGrant_setpoint (b : Budget) : b.decideGrant.setpoint = b.setpoint := by
  unfold Budget.decideGrant; split <;> rfl

theorem Budget.decideGrant_held (b : Budget) (h : b.grant = .held) : b.decideGrant.grant = .held := by
  unfold Budget.decideGrant; split
  · rfl
  · exact h

theorem Budget.moveSetpoint_grant (b : Budget) (p : ChargeProfile) (c : Int) :
    (b.moveSetpoint p c).grant = b.grant := by
  unfold Budget.moveSetpoint; simp only; repeat' split
  all_goals rfl

/-- The setpoint moved under a ceiling that is not negative stays between 0 and the ceiling (R148). -/
theorem Budget.moveSetpoint_bounded {b : Budget} {p : ChargeProfile} {c : Int} (hp : p.NonNegative)
    (h0 : 0 ≤ b.setpoint) (hc : 0 ≤ c) :
    0 ≤ (b.moveSetpoint p c).setpoint ∧ (b.moveSetpoint p c).setpoint ≤ c := by
  obtain ⟨-, -, -, -, hr, hb⟩ := hp
  unfold Budget.moveSetpoint
  simp only
  split
  · exact ⟨le_max_right _ _, by show max (min b.setpoint c - p.backOff) 0 ≤ c; omega⟩
  · split
    · exact ⟨by show 0 ≤ min (min b.setpoint c + p.rampStep) c; omega, min_le_right _ _⟩
    · exact ⟨by show 0 ≤ min b.setpoint c; omega, min_le_right _ _⟩

theorem State.charges_inputUpdate (s : State) : s.Charges s.inputUpdate := by
  obtain ⟨h1, h2⟩ := s.budget.settleInput_frame s.budget.readings.vin
  unfold State.inputUpdate
  simp only
  refine .trans ?_ (State.charges_raiseIf _ _ _)
  exact s.charges_budget h1 (by rw [h2]; exact id)

theorem State.charges_lowTest (s : State) : s.Charges s.lowTest := by
  obtain ⟨h1, h2⟩ := s.budget.judgeLow_frame
  have base (b : Budget) (hs : b.setpoint = s.budget.judgeLow.setpoint) (hg : b.grant = s.budget.judgeLow.grant) :
      s.Charges { s with budget := b } :=
    s.charges_budget (hs.trans h1) (by rw [hg, h2]; exact id)
  have raised (b : Budget) (n : Notice) (hs : b.setpoint = s.budget.judgeLow.setpoint)
      (hg : b.grant = s.budget.judgeLow.grant) : s.Charges (State.raise { s with budget := b } n) :=
    (base b hs hg).trans ⟨State.keeps_raise _ n, rfl, .inl rfl, _, rfl⟩
  unfold State.lowTest
  simp only
  split
  · exact base _ rfl rfl
  · split
    · split
      · exact base _ rfl rfl
      · exact raised _ _ rfl rfl
    · split
      · exact base _ rfl rfl
      · exact raised _ _ rfl rfl

theorem State.lowTest_charge (s : State) : s.lowTest.charge = s.charge := by
  unfold State.lowTest; simp only; repeat' split
  all_goals rfl

theorem State.lowTest_setpoint (s : State) : s.lowTest.budget.setpoint = s.budget.setpoint := by
  have h := s.budget.judgeLow_frame.1
  unfold State.lowTest; simp only; repeat' split
  all_goals exact h

theorem State.chargeUpdate_ceiling (s : State) : s.chargeUpdate.charge.ceiling = s.chargeUpdate.charge.stageCeiling := by
  unfold State.chargeUpdate; rfl

theorem State.monitorUpdate_only (s : State) (conv : Conversions) : s.PowerOnly (s.monitorUpdate conv) := by
  unfold State.monitorUpdate
  simp only
  have h1 : s.PowerOnly (State.inputUpdate { s with budget := s.budget.takeReadings (readingsOf conv) }) :=
    ((State.PowerOnly.refl s).budget _).trans (State.charges_inputUpdate _).only
  generalize State.inputUpdate { s with budget := s.budget.takeReadings (readingsOf conv) } = s1 at *
  have h2 : s.PowerOnly (State.chargeUpdate { s1 with budget := s1.budget.gaugeUpdate }) :=
    (h1.budget _).trans (State.charges_chargeUpdate _).only
  exact (h2.budget _).trans (State.charges_lowTest _).only

theorem State.keeps_monitorUpdate (s : State) (conv : Conversions) : s.Keeps (s.monitorUpdate conv) := by
  unfold State.monitorUpdate
  simp only
  have h1 : s.Charges (State.inputUpdate { s with budget := s.budget.takeReadings (readingsOf conv) }) :=
    .trans (s.charges_budget (b := s.budget.takeReadings (readingsOf conv)) rfl id) (State.charges_inputUpdate _)
  generalize State.inputUpdate { s with budget := s.budget.takeReadings (readingsOf conv) } = s1 at *
  have h2 : s.Charges (State.chargeUpdate { s1 with budget := s1.budget.gaugeUpdate }) :=
    (h1.trans (s1.charges_budget s1.budget.gaugeUpdate_frame.1 (by rw [s1.budget.gaugeUpdate_frame.2]; exact id))).trans
      (State.charges_chargeUpdate _)
  have hc := State.chargeUpdate_ceiling { s1 with budget := s1.budget.gaugeUpdate }
  generalize State.chargeUpdate { s1 with budget := s1.budget.gaugeUpdate } = s2 at *
  generalize hb : (s2.budget.moveSetpoint s2.charge.profile s2.charge.ceiling).decideGrant = b
  have hset : b.setpoint = (s2.budget.moveSetpoint s2.charge.profile s2.charge.ceiling).setpoint := by
    rw [← hb, Budget.decideGrant_setpoint]
  have hheld (h : s2.budget.grant = .held) : b.grant = .held := by
    rw [← hb]; exact Budget.decideGrant_held _ (by rw [Budget.moveSetpoint_grant]; exact h)
  have hlow := State.charges_lowTest { s2 with budget := b }
  refine ⟨⟨hlow.rest.buffer ∘ h2.rest.buffer, hlow.rest.clip ∘ h2.rest.clip, hlow.rest.card ∘ h2.rest.card,
    hlow.rest.link ∘ h2.rest.link, hlow.rest.waiting.trans h2.rest.waiting, ?_⟩,
    fun h => hlow.rest.run (fun hr => hheld (h2.rest.run h hr))⟩
  rintro ⟨hp, -, h0, -⟩
  rw [← h2.profile] at hp
  have hnn := ChargeController.stageCeiling_nonneg hp
  have hs2 : 0 ≤ s2.budget.setpoint := by
    rcases h2.setpoint with h | h <;> rw [h]
    exact h0
  rw [hc] at hset
  obtain ⟨hlo, hhi⟩ := Budget.moveSetpoint_bounded (b := s2.budget) hp hs2 hnn
  refine State.SetpointBounded.congr (s := { s2 with budget := b }) (State.lowTest_charge _)
    (State.lowTest_setpoint _) ⟨hp, hc, ?_, ?_⟩
  · show 0 ≤ b.setpoint; rw [hset]; exact hlo
  · show b.setpoint ≤ _; rw [hset]; exact hhi

/-! ### Commands and loads of charging -/

theorem ChargeController.setInhibit_ceiling (c : ChargeController) (b : Bool) :
    (c.setInhibit b).stageCeiling = c.stageCeiling := rfl

theorem State.keeps_setInhibit (s : State) (b : Bool) : s.Keeps { s with charge := s.charge.setInhibit b } :=
  (s.charges_charge (by rfl)).keeps id

theorem State.keeps_chargeInhibit (s : State) : s.Keeps s.chargeInhibit.1 := by
  unfold State.chargeInhibit
  simp only
  split
  · refine .trans (s.keeps_setInhibit true) (State.Charges.keeps ((State.charges_enterHold _).trans
      (State.charges_updateCeiling _)) ?_)
    intro h
    exact State.SetpointBounded.of_zero (by rw [(State.charges_enterHold _).profile]; exact h.1)
      (State.enterHold_setpoint _)
  · exact s.keeps_setInhibit true

theorem State.keeps_chargeAllow (s : State) : s.Keeps s.chargeAllow.1 := by
  unfold State.chargeAllow
  simp only
  split
  · rename_i hh
    refine .trans (s.keeps_setInhibit false) (State.Charges.keeps ((State.charges_leaveHold _).trans
      (State.charges_updateCeiling _)) ?_)
    rintro ⟨hp, -, h0, hc⟩
    rw [ChargeController.stageCeiling_rest (by show s.charge.stage.isRest = true; rw [hh.1]; rfl)] at hc
    refine State.SetpointBounded.of_zero (by rw [(State.charges_leaveHold _).profile]; exact hp) ?_
    rcases (State.charges_leaveHold { s with charge := s.charge.setInhibit false }).setpoint with h | h
    · rw [h]; exact le_antisymm hc h0
    · exact h
  · exact s.keeps_setInhibit false

theorem State.keeps_chargeClear (s : State) : s.Keeps s.chargeClear.1 := by
  unfold State.chargeClear
  simp only
  split
  · refine State.Charges.keeps ((State.charges_enterStage _ _ _ _).trans (State.charges_updateCeiling _)) fun h => ?_
    exact State.SetpointBounded.of_zero (by rw [(State.charges_enterStage _ _ _ _).profile]; exact h.1)
      (State.enterStage_setpoint _ rfl _ _)
  · exact .refl s

theorem clampInt_ge {lo hi v : Int} (h : lo ≤ hi) : lo ≤ clampInt lo hi v := by
  unfold clampInt; split <;> (try split) <;> omega

/-- Every profile that can be stored has its currents and steps not negative. -/
theorem chargeProfileOf_nonNegative (e : List Int) : (chargeProfileOf e).NonNegative := by
  have h {lo hi v : Int} (h0 : 0 ≤ lo) (h1 : lo ≤ hi) : 0 ≤ clampInt lo hi v := h0.trans (clampInt_ge h1)
  exact ⟨h (by decide) (by decide), h (by decide) (by decide), h (by decide) (by decide), h (by decide) (by decide),
    h (by decide) (by decide), h (by decide) (by decide)⟩

/-- A profile of non-negative currents stored while the stage is at rest leaves the setpoint at its bound of 0. -/
theorem State.SetpointBounded.storeProfile (h : s.SetpointBounded) {c : ChargeController}
    (hp : c.profile.NonNegative) (hs : c.stage = s.charge.stage) (hr : s.charge.stage.isRest = true)
    (hc : c.ceiling = s.charge.ceiling) : State.SetpointBounded { s with charge := c } := by
  obtain ⟨-, h1, h2, h3⟩ := h
  rw [ChargeController.stageCeiling_rest hr] at h1 h3
  have hz : c.stageCeiling = 0 := ChargeController.stageCeiling_rest (by rw [hs]; exact hr)
  exact ⟨hp, by show c.ceiling = c.stageCeiling; rw [hc, h1, hz], h2, by show _ ≤ c.stageCeiling; rw [hz]; exact h3⟩

/-- The charge controller replaced, whatever its profile: the other invariants are kept. -/
theorem State.keeps_charge (s : State) {c : ChargeController}
    (h : s.SetpointBounded → State.SetpointBounded { s with charge := c }) : s.Keeps { s with charge := c } :=
  ⟨⟨id, id, id, id, le_rfl, h⟩, id⟩

theorem State.keeps_loadChargeProfile (s : State) (p : Packet) : s.Keeps (s.loadChargeProfile p).1 := by
  unfold State.loadChargeProfile
  simp only
  split
  · generalize hv : chargeProfileOf (overlay s.charge.profile.entries p.header.firstEntry (loadedInts p)) = v
    have hnn : v.NonNegative := by rw [← hv]; exact chargeProfileOf_nonNegative _
    unfold State.profileCause
    simp only
    split
    · rename_i hi
      refine s.keeps_charge fun h => h.storeProfile hnn rfl ?_ rfl
      rcases hi with hi | hi <;> rw [hi] <;> rfl
    · split
      · rename_i hh
        refine s.keeps_charge fun h => h.storeProfile hnn rfl ?_ rfl
        rw [hh]; rfl
      · generalize hc : ({ s.charge with
            profile := v, causes := { s.charge.causes with profile := true }, resume := .qualify } : ChargeController) = c
        have hcp : c.profile = v := by rw [← hc]
        have hk := State.charges_enterHold { s with charge := c }
        refine ⟨⟨hk.rest.buffer, hk.rest.clip, hk.rest.card, hk.rest.link, hk.rest.waiting, fun _ => ?_⟩, hk.rest.run⟩
        exact State.SetpointBounded.of_zero (by rw [hk.profile]; show c.profile.NonNegative; rw [hcp]; exact hnn)
          (State.enterHold_setpoint _)
  · exact .refl s

end Sys2Proof.Machine
end

section
/-! SUPPORT. Requests, resets and every command keep the invariants; the four statements on what a step keeps. -/
namespace Sys2Proof.Machine

variable {s t u : State}

/-! ### Requests -/

/-- The invariants hold after an event that they held before. Within an event `Keeps` says so as well, and that no request
joins the outstanding list meanwhile. -/
structure State.Kept (s t : State) : Prop where
  buffer : s.buffer.Sound → t.buffer.Sound
  clip : s.ClipSound → t.ClipSound
  card : s.card.Bounded → t.card.Bounded
  link : s.LinkBounded → t.LinkBounded
  power : s.SetpointBounded → t.SetpointBounded
  run : s.RunGranted → t.RunGranted

theorem State.Keeps.kept (h : s.Keeps t) : s.Kept t := ⟨h.buffer, h.clip, h.card, h.link, h.power, h.run⟩

theorem State.Kept.refl (s : State) : s.Kept s := (State.Keeps.refl s).kept

theorem State.Kept.quiet (h : t.guarded = s.guarded) (hc : t.card.state = s.card.state)
    (hg : t.budget.grant = s.budget.grant) : s.Kept t := (State.Keeps.quiet h hc hg).kept

theorem State.Kept.trans (h : s.Kept t) (k : t.Kept u) : s.Kept u :=
  ⟨k.buffer ∘ h.buffer, k.clip ∘ h.clip, k.card ∘ h.card, k.link ∘ h.link, k.power ∘ h.power, k.run ∘ h.run⟩

theorem State.Kept.arbitrate (h : s.Kept t) : s.Kept t.arbitrate := h.trans t.keeps_arbitrate.kept

theorem State.Kept.conclude (h : s.Kept t) : s.Kept t.conclude := h.trans t.keeps_conclude.kept

theorem State.keeps_received (s : State) : s.Keeps s.received := .quiet rfl rfl rfl

theorem State.keeps_overrun (h : Header) (r : OverrunReason) (s : State) : s.Keeps (s.overrun h r) :=
  .trans (t := { s with link := { s.link with overruns := s.link.overruns + 1 } }) (.quiet rfl rfl rfl)
    (State.keeps_raise _ _)

/-- Taking a request keeps the invariants that its execution keeps. -/
theorem State.kept_takeRequest (s : State) (p : Packet) (sel : Bool) (k : RequestKind) {body : State → Executed}
    (hb : s.received.Keeps (body s.received).1) : s.Kept (s.takeRequest p sel k body) := by
  rcases takeRequest_cases s p sel k body with ⟨-, h⟩ | ⟨-, h⟩ | ⟨-, -, hlt, h⟩ <;> rw [h]
  · exact .refl s
  · exact (s.keeps_received.trans (State.keeps_overrun _ _ _)).kept
  · have hk := s.keeps_received.trans hb
    refine ⟨hk.buffer, hk.clip, hk.card, fun hl => ?_, hk.power, hk.run⟩
    obtain ⟨-, h2, h3, h4⟩ := hk.link hl
    refine ⟨?_, h2, h3, h4⟩
    have := hk.waiting
    simp only [State.join_link, List.length_append, List.length_singleton]
    omega

theorem State.kept_takeCommand (s : State) (p : Packet) (code n : Nat) {body : State → Executed}
    (hb : ∀ u : State, u.Keeps (body u).1) : s.Kept (s.takeCommand p code n body) := by
  refine s.kept_takeRequest p _ _ ?_
  split
  · exact hb _
  · exact .refl _

theorem State.kept_takeLoad (s : State) (p : Packet) (table : Nat) (fits : Bool) {body : State → Executed}
    (hb : ∀ u : State, u.Keeps (body u).1) : s.Kept (s.takeLoad p table fits body) := by
  refine s.kept_takeRequest p _ _ ?_
  split
  · exact hb _
  · exact .refl _

theorem State.keeps_answerWaiting (s : State) (w : Answer) (c : ResultCode) : s.Keeps (s.answerWaiting w c) :=
  .quiet (by simp [State.guarded, State.answerWaiting]) rfl rfl

/-! ### The clip commands -/

theorem State.keeps_openClip (s : State) (hi : s.clip.state = .idle) (clip : Word32) (mode : ClipMode) (i : Nat) :
    s.Keeps (s.openClip clip mode i) := by
  refine ⟨⟨id, fun ⟨h1, h2, h3⟩ => ⟨⟨fun j hj => ?_, fun _ => rfl⟩, ⟨fun h => (by cases h), ?_⟩, ?_⟩,
    id, id, le_rfl, id⟩, id⟩
  · have hj' : ((s.clip.setSlot i ((s.clip.slot i).taken clip s.now)).slot j).state = .filling := hj
    have hl : s.clip.Left := .of_none (by
      cases hf : s.clip.filling with
      | none => rfl
      | some f => exact absurd (h1.2 (by simp [hf])) (by simp [hi, ClipState.isOpen]))
    rw [s.clip.setSlot_slot] at hj'
    split at hj'
    · rename_i hij; show some i = some j; rw [hij.1]
    · exact absurd hj' (h1.none_filling hl j)
  · intro _; exact .inl rfl
  · exact h3.setSlot i ((s.clip.slot i).taken clip s.now) .inl

theorem State.keeps_clipStart (s : State) (args : List Byte) : s.Keeps (s.clipStart args).1 := by
  unfold State.clipStart
  split
  · exact .refl s
  · rename_i hi
    have hi : s.clip.state = .idle := by simpa using hi
    split
    · exact .refl s
    · rename_i mode _
      split
      · have hk := State.keeps_seekSlot mode none 65 s
        obtain ⟨-, -, hx, -, -⟩ := s.seekSlot_spec mode none 65
        split
        · rename_i s1 heq
          rw [heq] at hk
          exact hk
        · rename_i s1 i heq
          rw [heq] at hk hx
          exact hk.trans (s1.keeps_openClip (hx.trans hi) _ _ _)
      · exact .refl s

theorem State.keeps_clipStop (s : State) : s.Keeps s.clipStop.1 := by
  have stop (h : s.clip.state ≠ .idle) : s.Keeps s.beginStop :=
    (s.keeps_beginClose h (x := .closing) (by simp)).trans (State.keeps_requestFlush _ _)
  unfold State.clipStop
  split
  · rename_i h; exact stop (by simp [h])
  · rename_i h; exact stop (by simp [h])
  all_goals exact .refl s

theorem State.keeps_flushCommand (s : State) : s.Keeps s.flushCommand.1 := s.keeps_requestFlush _

theorem State.keeps_segmentFree (s : State) (i : Nat) : s.Keeps (s.segmentFree i).1 := by
  unfold State.segmentFree
  simp only
  split
  · exact .refl s
  · split
    · exact .refl s
    · split
      · exact .refl s
      · exact s.keeps_setSlot ⟨fun h => by simp [Slot.freed] at h, fun h => by simp [Slot.freed] at h⟩

theorem State.keeps_segmentProtect (s : State) (i : Nat) : s.Keeps (s.segmentProtect i).1 := by
  unfold State.segmentProtect
  simp only
  split
  · exact .refl s
  · split
    · exact .refl s
    · split
      · exact s.keeps_setSlot ⟨id, fun _ => .inr ‹_›⟩
      · exact .refl s

theorem State.keeps_segmentUnprotect (s : State) (i : Nat) : s.Keeps (s.segmentUnprotect i).1 := by
  unfold State.segmentUnprotect
  split
  · exact .refl s
  · exact s.keeps_setSlot ⟨id, fun h => by simp at h⟩

/-! ### Media and malformed packets -/

theorem State.keeps_setParser (s : State) (x : Parser) : s.Keeps (s.setParser x) := .quiet rfl rfl rfl

theorem State.refusal_none (h : Header) (hn : s.refusal h = none) :
    s.clip.state ≠ .idle ∧ 0 < s.buffer.freeDescriptors := by
  unfold State.refusal at hn
  split at hn
  · cases hn
  · split at hn
    · cases hn
    · cases hn
    · cases hn
    all_goals
      rename_i hx
      split at hn
      · rename_i hr
        simp only [ChunkBuffer.hasRoom, Bool.and_eq_true, decide_eq_true_eq] at hr
        exact ⟨by simp [hx], hr.1⟩
      · cases hn

theorem State.keeps_judgeMedia (s : State) (h : Header) : s.Keeps (s.judgeMedia h) := by
  unfold State.judgeMedia
  split
  · exact s.keeps_setParser _
  · split
    · exact .trans (t := State.setParser { s with buffer := { s.buffer with mediaDiscard := s.buffer.mediaDiscard + 1 } }
        (.dropping h.len.toNat)) (.quiet rfl rfl rfl) (State.keeps_raise _ _)
    · rename_i hn
      obtain ⟨hi, hd⟩ := State.refusal_none h hn
      exact (s.keeps_grown (fun _ => hi) (fun hs => hs.create hd ..)).trans (State.keeps_setParser _ _)

theorem Chunk.complete_pages (q : Word32) (now : Time) (c : Chunk) : (c.complete q now).pages = c.pages := by
  unfold Chunk.complete; split <;> rfl

theorem State.keeps_completeMedia (s : State) (c : Chunk) (payload : List Byte) :
    s.Keeps (s.completeMedia c payload) :=
  s.keeps_buffer (fun h => (h.storePayload _ _).mapQueue (Chunk.complete_pages _ _))
    (fun h => by simp [ChunkBuffer.mapQueue, ChunkBuffer.storePayload, h])

theorem State.keeps_consumeMalformed (s : State) (h : Header) : s.Keeps (s.consumeMalformed h) := by
  refine (s.keeps_setParser (dropped h.payloadBytes)).trans ?_
  show State.Keeps _ (State.reportMalformed _ h)
  unfold State.reportMalformed
  split
  · exact .refl _
  · exact State.keeps_overrun _ _ _
  · exact State.keeps_overrun _ _ _
  · exact State.keeps_chooseFree _ (fun u => u.keeps_overrun _ _) (fun u => u.keeps_overrun _ _)

/-! ### Motion -/

theorem State.keeps_portIdle (s : State) : s.Keeps s.portIdle :=
  (s.keeps_imu _).trans (State.keeps_answerWaiting _ _ _)

theorem State.keeps_settleUntil (s : State) (due : Time) : s.Keeps (s.settleUntil due) := by
  unfold State.settleUntil
  split
  · exact s.keeps_portIdle
  · exact s.keeps_imu _

theorem State.keeps_startInit (s : State) (due : Time) : s.Keeps (s.startInit due) := by
  unfold State.startInit
  simp only
  split
  · exact s.keeps_imu _
  · exact (s.keeps_imu _).trans (State.keeps_settleUntil _ _)

theorem State.keeps_nextPair (s : State) (i : Nat) : s.Keeps (s.nextPair i) := by
  unfold State.nextPair
  split
  · exact s.keeps_imu _
  · exact s.keeps_settleUntil _

theorem State.keeps_endStale (s : State) : s.Keeps s.endStale := by
  have h : s.Keeps (State.answerWaiting { s with imu := { s.imu with txn := none, stale := false } } .awaitStop .ok) :=
    (s.keeps_imu _).trans (State.keeps_answerWaiting _ _ _)
  unfold State.endStale
  simp only
  split
  · exact h.trans (State.keeps_startInit _ _)
  · exact h.trans (State.keeps_imu _ _)

theorem State.keeps_motionStart (s : State) : s.Keeps s.motionStart.1 := by
  have h : s.Keeps s.startSession := .quiet rfl rfl rfl
  unfold State.motionStart
  simp only
  split
  · exact .refl s
  · split
    · exact h
    · exact h.trans (State.keeps_startInit _ _)

theorem State.keeps_motionStop (s : State) : s.Keeps s.motionStop.1 := by
  have h : s.Keeps (s.stopSession.answerWaiting .awaitStart .busy) :=
    .trans (t := s.stopSession) (.quiet rfl rfl rfl) (State.keeps_answerWaiting _ _ _)
  unfold State.motionStop
  simp only
  split
  · exact .refl s
  · split
    · split
      · exact h.trans (State.keeps_imu _ _)
      · exact h.trans (State.keeps_imu _ _)
    · exact .refl s

theorem State.keeps_setChannel (s : State) (ch : Channel) (x : Capture) : s.Keeps (s.setChannel ch x) :=
  s.keeps_capture _

theorem State.keeps_judged (s : State) (ch : Channel) (x : Capture) (time : Time) : s.Keeps (s.judged ch x time) :=
  (s.keeps_setChannel ch x).trans (State.keeps_raiseIf _ _ _)

/-! ### Loads and the remaining commands -/

theorem ClipRecorder.loadSlot_allows (c : ClipRecorder) (e : SegmentEntry) :
    c.Allows e.slot { (c.slot e.slot).freed with first := e.first, count := e.count } :=
  ⟨fun h => by simp [Slot.freed] at h, fun h => by simp [Slot.freed] at h⟩

theorem State.keeps_loadSlots (es : List SegmentEntry) (s : State) :
    s.Keeps { s with clip := es.foldl ClipRecorder.loadSlot s.clip } := by
  induction es generalizing s with
  | nil => exact .refl s
  | cons e es ih => exact (s.keeps_setSlot (s.clip.loadSlot_allows e)).trans (ih _)

theorem State.keeps_loadSegments (s : State) (p : Packet) : s.Keeps (s.loadSegments p).1 := by
  unfold State.loadSegments
  simp only
  split
  · exact .refl s
  · split
    · exact State.keeps_loadSlots _ s
    · exact .refl s

theorem State.keeps_loadWindow (s : State) (p : Packet) : s.Keeps (s.loadWindow p).1 := by
  unfold State.loadWindow
  split
  · exact .quiet rfl rfl rfl
  · exact .refl s

theorem State.keeps_loadMount (s : State) (p : Packet) : s.Keeps (s.loadMount p).1 := by
  unfold State.loadMount
  split
  · exact .refl s
  · exact s.keeps_motion _

theorem State.keeps_loadMotionCfg (s : State) (p : Packet) : s.Keeps (s.loadMotionCfg p).1 := by
  unfold State.loadMotionCfg
  simp only
  split
  · exact .refl s
  · split
    · exact .refl s
    · exact s.keeps_imu _

/-- A clip configuration stored with a protect limit that the protected segments keep to. -/
theorem State.keeps_loadClipCfg (s : State) (p : Packet) : s.Keeps (s.loadClipCfg p).1 := by
  unfold State.loadClipCfg
  simp only
  split
  · exact .refl s
  · split
    · exact .refl s
    · split
      · exact .refl s
      · rename_i hl
        exact ⟨⟨id, fun ⟨h1, h2, _⟩ => ⟨h1, h2, Nat.le_of_not_lt hl⟩, id, id, le_rfl, id⟩, id⟩

theorem State.keeps_loadOcv (s : State) (p : Packet) : s.Keeps (s.loadOcv p).1 := by
  unfold State.loadOcv
  simp only
  split
  · exact .quiet rfl rfl rfl
  · exact .refl s

theorem Budget.setCfg_frame (b : Budget) (c : BudgetCfg) :
    (b.setCfg c).setpoint = b.setpoint ∧ (b.setCfg c).grant = b.grant := by
  unfold Budget.setCfg; split <;> exact ⟨rfl, rfl⟩

theorem State.keeps_loadBudgetCfg (s : State) (p : Packet) : s.Keeps (s.loadBudgetCfg p).1 := by
  unfold State.loadBudgetCfg
  simp only
  split
  · obtain ⟨h1, h2⟩ := s.budget.setCfg_frame
      (budgetCfgOf (overlay s.budget.cfg.entries p.header.firstEntry (loadedInts p)))
    exact .quiet (by simp [State.guarded, h1]) rfl h2
  · exact .refl s

/-- A snapshot counts a free value at most. -/
theorem State.snapshot_state (s : State) : ∃ n, s.snapshot.1 = { s with freeCount := n } := by
  unfold State.snapshot
  split
  · exact ⟨s.freeCount, rfl⟩
  · exact ⟨_, rfl⟩

theorem State.keeps_snapshot (s : State) : s.Keeps s.snapshot.1 := by
  obtain ⟨n, h⟩ := s.snapshot_state
  rw [h]
  exact s.keeps_freeCount n

theorem State.keeps_readTable (s : State) (p : Packet) : s.Keeps (s.readTable p).1 := by
  unfold State.readTable
  simp only
  split
  · exact .refl s
  · dsimp only
    split
    · exact s.keeps_snapshot
    · exact .refl s

theorem State.keeps_cardRetry (s : State) : s.Keeps s.cardRetry.1 := by
  unfold State.cardRetry
  split
  · exact (State.Keeps.refl s).toKeepsBut.beginInit _ _
  all_goals exact .refl s

theorem State.keeps_logClear (s : State) : s.Keeps s.logClear.1 :=
  s.keeps_card (fun ⟨h1, _, _⟩ => ⟨h1, by simp, by simp⟩) rfl

theorem State.keeps_parkCommand (s : State) : s.Keeps s.parkCommand.1 := by
  have h : s.Keeps { s with link := { s.link with parked := true } } := .quiet rfl rfl rfl
  unfold State.parkCommand State.enterPark
  simp only
  split
  · split
    · exact h.trans (State.keeps_sendSleep _)
    · exact h
  · exact .refl s

/-! ### Emergency close -/

theorem ChunkBuffer.discardWithdrawn_cases (b : ChunkBuffer) (p : Option CloseCause) :
    b.discardWithdrawn p = b ∨ ∃ q, b.discardWithdrawn p = b.discardFrom q := by
  unfold ChunkBuffer.discardWithdrawn
  split
  · exact .inr ⟨_, rfl⟩
  · exact .inl rfl

theorem State.keeps_boundEmergency (s : State) : s.Keeps s.boundEmergency := by
  unfold State.boundEmergency
  split
  · exact .refl s
  · rename_i f hf
    simp only
    have h1 : s.Keeps { s with buffer := s.buffer.discardWithdrawn f.pending } := by
      rcases s.buffer.discardWithdrawn_cases f.pending with h | ⟨q, h⟩ <;> rw [h]
      · exact .refl s
      · exact s.keeps_discardFrom q
    have h2 := h1.trans (State.keeps_setFilling _ (f := f) (g := f.enterEmergency s.clip.cfg.emergencyBudget)
      (by exact hf) rfl)
    split
    · exact h2
    · exact h2.trans (State.keeps_emergencyDiscard _ rfl _)

theorem State.keeps_beginEmergency (s : State) (hi : s.clip.state ≠ .idle) : s.Keeps s.beginEmergency :=
  ((s.keeps_beginClose hi (x := .emergency) (by simp)).trans (State.keeps_boundEmergency _)).trans
    (State.keeps_requestFlush _ _)

/-! ### Resets -/

/-- An emptied chunk buffer is sound, whatever canonical bytes its pages hold. -/
theorem ChunkBuffer.hostReset_sound (b : ChunkBuffer) (h : ramWf b.ram = true) : b.hostReset.Sound :=
  ⟨by simp [ChunkBuffer.PagesKept, ChunkBuffer.hostReset, ChunkBuffer.reset],
    by simp [ChunkBuffer.Balanced, ChunkBuffer.hostReset, ChunkBuffer.reset],
    by simp [ChunkBuffer.hostReset, ChunkBuffer.reset], h⟩

theorem reset_slot (i : Nat) : ClipRecorder.reset.slot i = Slot.reset := by
  unfold ClipRecorder.slot ClipRecorder.reset
  by_cases h : i < 64 <;> simp [h]

theorem reset_clipSound : State.reset.ClipSound := by
  refine ⟨⟨fun i hi => ?_, fun h => ?_⟩, ⟨fun _ => rfl, fun h => ?_⟩, ?_⟩
  · have hi : (ClipRecorder.reset.slot i).state = .filling := hi
    rw [reset_slot] at hi
    cases hi
  · cases h
  · cases h
  · show ClipRecorder.reset.protectedCount ≤ 16
    unfold ClipRecorder.protectedCount ClipRecorder.reset
    simp [Slot.reset]

theorem reset_bufferSound : State.reset.buffer.Sound := by
  have h : State.reset.buffer = ChunkBuffer.reset.hostReset := by
    simp only [State.reset, ChunkBuffer.hostReset, ChunkBuffer.reset]
  rw [h]
  exact ChunkBuffer.reset.hostReset_sound reset_ram_wf

theorem reset_cardBounded : State.reset.card.Bounded := ⟨by decide, by decide, by decide⟩

theorem reset_linkBounded : State.reset.LinkBounded :=
  ⟨by decide, by decide, by simp [State.reset, Link.reset], by decide⟩

theorem reset_setpointBounded : State.reset.SetpointBounded := by
  refine ⟨⟨?_, ?_, ?_, ?_, ?_, ?_⟩, rfl, ?_, ?_⟩ <;> decide

/-- A state whose guarded part is that of reset has the invariants. -/
theorem State.kept_of_reset (h : t.guarded = State.reset.guarded) (hr : t.card.state ≠ .run) : s.Kept t :=
  ⟨fun _ => reset_bufferSound.congr h, fun _ => reset_clipSound.congr h, fun _ => reset_cardBounded.congr h,
    fun _ => reset_linkBounded.congr h,
    fun _ => reset_setpointBounded.congr (congrArg Guarded.charge h) (congrArg Guarded.setpoint h),
    fun _ k => absurd k hr⟩

theorem State.kept_powerOn (s : State) : s.Kept s.powerOn := by
  unfold State.powerOn
  simp only
  split
  · refine .trans (t := _) (State.kept_of_reset ?_ ?_) (State.keeps_raise _ _).kept
    · rfl
    · simp
  · split
    · exact State.kept_of_reset rfl (by simp [State.beginInit])
    · exact State.kept_of_reset rfl (by simp [CardController.reset])

/-- The card's part of a host reset touches nothing that the invariants speak of, and ends outside RUN. -/
theorem State.resetCard_frame (s : State) : s.resetCard.guarded = s.guarded ∧ s.resetCard.card.state ≠ .run := by
  unfold State.resetCard
  simp only
  split
  · exact ⟨rfl, by simp⟩
  · split
    · unfold State.withResetOrigin State.chooseFree
      split
      · dsimp only
        split <;> exact ⟨rfl, by simp [State.beginInit]⟩
      · exact ⟨rfl, by simp [State.beginInit]⟩
    · exact ⟨rfl, by simp⟩

theorem State.kept_hostReset (s : State) : s.Kept s.hostReset := by
  have hk : s.Keeps s.enterGranted.interruptSlot := s.keeps_enterGranted.trans (State.keeps_interruptSlot _)
  have hn := s.enterGranted.interruptSlot_filling
  have hclip : s.enterGranted.resetClip.guarded =
      { s.enterGranted.interruptSlot.guarded with clipState := .idle } := by
    unfold State.resetClip State.guarded
    simp [hn]
  obtain ⟨hg, hr⟩ := s.enterGranted.resetClip.resetCard_frame
  rw [hclip] at hg
  unfold State.hostReset
  simp only
  generalize s.enterGranted.interruptSlot = s1 at *
  generalize s.enterGranted.resetClip.resetCard = s2 at *
  have hram : s2.buffer.ram = s1.buffer.ram := congrArg Guarded.ram hg
  have hslots : s2.clip.slots = s1.clip.slots := congrArg Guarded.slots hg
  have hfill : s2.clip.filling.map Filling.slot = s1.clip.filling.map Filling.slot := congrArg Guarded.filling hg
  have hlimit : s2.clip.cfg.protectLimit = s1.clip.cfg.protectLimit := congrArg Guarded.protectLimit hg
  have hlists := congrArg Guarded.cardLists hg
  simp only [State.guarded, Prod.mk.injEq] at hlists
  obtain ⟨hbad, hlog, hsup⟩ := hlists
  refine ⟨fun h => ?_, fun h => ?_, fun h => ?_, fun _ => ?_, fun h => ?_, fun _ k => absurd k hr⟩
  · exact ChunkBuffer.hostReset_sound _ (by rw [hram]; exact (hk.buffer h).2.2.2)
  · obtain ⟨h1, -, h3⟩ := hk.clip h
    refine ⟨⟨fun i hi => ?_, fun hf => ?_⟩, ⟨fun _ => rfl, fun h => by cases h⟩, ?_⟩
    · have hi : (s2.clip.slot i).state = .filling := hi
      rw [ClipRecorder.slot_congr hslots] at hi
      exact absurd hi (h1.none_filling (.of_none hn) i)
    · have hf : s2.clip.filling.isSome = true := hf
      rw [hn] at hfill
      have : s2.clip.filling = none := by simpa using hfill
      simp [this] at hf
    · show s2.clip.protectedCount ≤ s2.clip.cfg.protectLimit
      unfold ClipRecorder.protectedCount; rw [hslots, hlimit]; exact h3
  · have := hk.card h
    unfold CardController.Bounded at *
    rw [hbad, hlog, hsup]; exact this
  · exact reset_linkBounded
  · exact (hk.power h).congr (congrArg Guarded.charge hg) (congrArg Guarded.setpoint hg)

end Sys2Proof.Machine
end

section
/-! SUPPORT. Every command keeps the invariants; the statements on what a step keeps. -/
namespace Sys2Proof.Machine

variable {s t u : State}

/-! ### The effect of each command -/

/-- The next state of a command, which `exec` answers in every state. -/
def State.effect (s : State) : Instr → State
  | .powerOn => s.onPowerOn
  | .resetAssert => s.onResetAssert
  | .resetRelease => s.onResetRelease
  | .fsEdge => s.onFsEdge
  | .drEdge => s.onDrEdge
  | .lossDeadlineExpiry ch => s.onLossDeadlineExpiry ch
  | .bandExpiry => s.onBandExpiry
  | .initWriteDone => s.onInitWriteDone
  | .settleExpiry => s.onSettleExpiry
  | .readComplete bytes => s.onReadComplete bytes
  | .mediaHeader h => s.onMediaHeader h
  | .mediaPayloadComplete payload => s.onMediaPayloadComplete payload
  | .latencyExpiry => s.onLatencyExpiry
  | .malformedPacket h => s.onMalformedPacket h
  | .clipStart p => s.onClipStart p
  | .clipStop p => s.onClipStop p
  | .flush p => s.onFlush p
  | .segmentFree p => s.onSegmentFree p
  | .segmentProtect p => s.onSegmentProtect p
  | .segmentUnprotect p => s.onSegmentUnprotect p
  | .motionStart p => s.onMotionStart p
  | .motionStop p => s.onMotionStop p
  | .chargeInhibit p => s.onChargeInhibit p
  | .chargeAllow p => s.onChargeAllow p
  | .chargeClear p => s.onChargeClear p
  | .inputLimit p => s.onInputLimit p
  | .cardRetry p => s.onCardRetry p
  | .logClear p => s.onLogClear p
  | .status p => s.onStatus p
  | .park p => s.onPark p
  | .restart p => s.onRestart p
  | .unknownCommand p => s.onUnknownCommand p
  | .windowLoad p => s.onWindowLoad p
  | .segmentLoad p => s.onSegmentLoad p
  | .biasLoad p => s.onBiasLoad p
  | .mountLoad p => s.onMountLoad p
  | .lensLoad p => s.onLensLoad p
  | .motionCfgLoad p => s.onMotionCfgLoad p
  | .clipCfgLoad p => s.onClipCfgLoad p
  | .chargeProfileLoad p => s.onChargeProfileLoad p
  | .ocvLoad p => s.onOcvLoad p
  | .budgetCfgLoad p => s.onBudgetCfgLoad p
  | .tableLoadOther p => s.onTableLoadOther p
  | .tableRead p => s.onTableRead p
  | .returnPacketSent => s.onReturnPacketSent
  | .claimAssert => s.onClaimAssert
  | .claimRelease => s.onClaimRelease
  | .cdetChange card => s.onCdetChange card
  | .cardInsertion => s.onCardInsertion
  | .cardRemoval => s.onCardRemoval
  | .identifyResponse capacity => s.onIdentifyResponse capacity
  | .cardStatusResponse ready => s.onCardStatusResponse ready
  | .wakeAck => s.onWakeAck
  | .sleepAck => s.onSleepAck
  | .enterRun => s.onEnterRun
  | .openRunAck => s.onOpenRunAck
  | .blockToken accepted => s.onBlockToken accepted
  | .busyEnd programmed => s.onBusyEnd programmed
  | .closeRunAck => s.onCloseRunAck
  | .cardTimeout => s.onCardTimeout
  | .busyTimeout => s.onBusyTimeout
  | .shockHoldExpiry => s.onShockHoldExpiry
  | .monitorUpdate conv => s.onMonitorUpdate conv
  | .emergencyClose => s.onEmergencyClose

/-- Every command answers its effect as the next state. -/
theorem exec_eq (c : Instr) (s : State) : exec c s = .next (s.effect c) := by cases c <;> rfl

/-! ### Rows that are not requests -/

/-- An event that has an effect in some states alone. -/
theorem State.Kept.ite {c : Prop} [Decidable c] (h : c → s.Kept t) : s.Kept (if c then t else s) := by
  split
  · exact h ‹_›
  · exact .refl s

theorem State.kept_onResetAssert (s : State) : s.Kept s.onResetAssert := by
  unfold State.onResetAssert
  split
  · exact .refl s
  · exact .trans (t := { s with pins := { s.pins with reset := true } }) (.quiet rfl rfl rfl)
      (State.kept_hostReset _)

theorem State.kept_onResetRelease (s : State) : s.Kept s.onResetRelease :=
  .ite fun _ => State.Kept.arbitrate (.quiet rfl rfl rfl)

theorem State.kept_onFsEdge (s : State) : s.Kept s.onFsEdge := by
  have h := s.keeps_setChannel .fs (s.capture.fs.take s.now)
  unfold State.onFsEdge
  simp only
  split
  · exact .refl s
  · split
    · exact State.Kept.conclude ((((h.trans (State.keeps_judged _ _ _ _)).trans (State.keeps_truncateFrame _)).trans
        (State.keeps_startFrame _)).trans (State.keeps_setChannel _ _ _)).kept
    · exact h.kept

theorem State.kept_onDrEdge (s : State) : s.Kept s.onDrEdge := by
  have h := s.keeps_setChannel .dr (s.capture.dr.take s.now)
  unfold State.onDrEdge
  simp only
  split
  · exact .refl s
  · refine State.Kept.arbitrate (State.Keeps.trans ?_ (State.keeps_imu _ _)).kept
    split
    · exact h.trans (State.keeps_judged _ _ _ _)
    · exact h

theorem State.kept_onLossDeadlineExpiry (ch : Channel) (s : State) : s.Kept (s.onLossDeadlineExpiry ch) := by
  unfold State.onLossDeadlineExpiry
  split
  · exact .refl s
  · exact .ite fun _ => (s.keeps_judged _ _ _).kept.arbitrate

theorem State.kept_onInitWriteDone (s : State) : s.Kept s.onInitWriteDone := by
  unfold State.onInitWriteDone
  split
  · refine State.Kept.arbitrate ?_
    split
    · exact s.keeps_endStale.kept
    · exact (s.keeps_nextPair _).kept
  · exact .refl s
  · exact .refl s

theorem State.kept_onReadComplete (bytes : List Byte) (s : State) : s.Kept (s.onReadComplete bytes) := by
  unfold State.onReadComplete
  split
  · split
    · exact s.keeps_endStale.kept.arbitrate
    · exact ((s.keeps_imu _).trans (State.keeps_processSample _ _)).kept.conclude
  · exact .refl s
  · exact .refl s

theorem State.kept_onMediaPayloadComplete (payload : List Byte) (s : State) :
    s.Kept (s.onMediaPayloadComplete payload) := by
  unfold State.onMediaPayloadComplete
  split
  · exact .refl s
  · split
    · exact .refl s
    · exact .ite fun _ => (s.keeps_setParser _).kept
    · refine .ite fun _ => .trans (s.keeps_setParser .header).kept ?_
      unfold State.payloadArrived
      split
      · exact .refl _
      · exact (State.keeps_completeMedia _ _ _).kept.conclude

theorem State.kept_onRestart (p : Packet) (s : State) : s.Kept (s.onRestart p) := by
  unfold State.onRestart
  split
  · exact s.kept_hostReset.arbitrate
  · exact (s.kept_takeCommand p 17 0 (fun u => .refl u)).arbitrate

theorem State.kept_onClaimAssert (s : State) : s.Kept s.onClaimAssert := by
  unfold State.onClaimAssert
  split
  · exact .refl s
  · refine (State.Keeps.trans (State.Keeps.trans (t := { s with pins := { s.pins with claim := true } }) ?_
      (State.keeps_enterGranted _)) (State.keeps_yieldCard _)).kept.conclude
    exact .quiet rfl rfl rfl

theorem State.kept_onClaimRelease (s : State) : s.Kept s.onClaimRelease := by
  have h : s.Keeps { s with pins := { s.pins with claim := false } } := .quiet rfl rfl rfl
  unfold State.onClaimRelease
  simp only
  split
  · split
    · exact (h.trans (State.keeps_takeBack _)).kept.conclude
    · exact h.kept
  · exact .refl s

theorem State.kept_onCdetChange (level : Bool) (s : State) : s.Kept (s.onCdetChange level) := by
  unfold State.onCdetChange
  split
  · exact .refl s
  · exact .quiet rfl rfl rfl

theorem State.kept_onCardInsertion (s : State) : s.Kept s.onCardInsertion := by
  refine .ite fun _ => State.Kept.conclude (State.Keeps.kept ((s.keeps_setPresence true).trans ?_))
  split
  · exact (State.Keeps.refl _).toKeepsBut.beginInit _ _
  · exact .refl _

theorem State.kept_onIdentifyResponse (cap : Word32) (s : State) : s.Kept (s.onIdentifyResponse cap) := by
  unfold State.onIdentifyResponse
  split
  · split
    · exact .refl s
    · exact State.Kept.conclude (t := s.noteCapacity cap) (.quiet rfl rfl rfl)
  · exact .refl s

theorem State.kept_onCardStatusResponse (ready : Bool) (s : State) : s.Kept (s.onCardStatusResponse ready) := by
  unfold State.onCardStatusResponse
  split
  · exact (s.keeps_clearBus.trans (State.keeps_judgeTry _ _)).kept.conclude
  · exact .refl s

theorem State.kept_onWakeAck (s : State) : s.Kept s.onWakeAck := by
  unfold State.onWakeAck
  split
  · refine State.Kept.conclude (State.Keeps.kept ?_)
    unfold State.wakeDone
    split
    · exact s.keeps_send _
    · exact s.keeps_clearBus.trans (State.keeps_openRun _)
  · exact .refl s

theorem State.kept_onSleepAck (s : State) : s.Kept s.onSleepAck := by
  unfold State.onSleepAck
  split
  · exact (s.keeps_clearBus.trans (State.keeps_setCardState _ (by simp))).kept.conclude
  · exact .refl s

theorem State.keeps_failedAttempt (s : State) (r : Run) : s.Keeps (s.failedAttempt r) := s.keeps_closeRun _ _

theorem State.kept_onOpenRunAck (s : State) : s.Kept s.onOpenRunAck := by
  unfold State.onOpenRunAck
  split
  · exact (s.keeps_nextBlock _).kept.conclude
  · exact .refl s

theorem State.kept_onBlockToken (accepted : Bool) (s : State) : s.Kept (s.onBlockToken accepted) := by
  unfold State.onBlockToken
  split
  · refine State.Kept.conclude (State.Keeps.kept ?_)
    split
    · exact s.keeps_send _
    · exact s.keeps_failedAttempt _
  · exact .refl s

theorem State.kept_onBusyEnd (programmed : Bool) (s : State) : s.Kept (s.onBusyEnd programmed) := by
  unfold State.onBusyEnd
  split
  · refine State.Kept.conclude (State.Keeps.kept ?_)
    split
    · exact s.keeps_blockDone _
    · exact s.keeps_failedAttempt _
  · exact .refl s

theorem State.kept_onCloseRunAck (s : State) : s.Kept s.onCloseRunAck := by
  unfold State.onCloseRunAck
  split
  · exact (s.keeps_runClosed _).kept.conclude
  · exact .refl s

theorem State.kept_onCardTimeout (s : State) : s.Kept s.onCardTimeout := by
  unfold State.onCardTimeout
  split
  · exact .refl s
  · exact .refl s
  · exact (s.keeps_commandTimeout _).kept.conclude

theorem State.kept_onBusyTimeout (s : State) : s.Kept s.onBusyTimeout := by
  unfold State.onBusyTimeout
  split
  · exact (s.keeps_runTimeout _).kept.conclude
  · exact .refl s

theorem State.kept_onEmergencyClose (s : State) : s.Kept s.onEmergencyClose := by
  have h : s.Keeps { s with budget := { s.budget with orderPending := false } } := .quiet rfl rfl rfl
  have begins (hi : s.clip.state ≠ .idle) :
      s.Kept (State.beginEmergency { s with budget := { s.budget with orderPending := false } }).conclude :=
    (h.trans (State.keeps_beginEmergency _ hi)).kept.conclude
  refine .ite fun _ => ?_
  unfold State.takeOrder
  simp only
  split
  iterate 3
    · rename_i hx; exact begins (by simp [hx])
  all_goals exact h.kept

/-! ### Every command -/

/-- Every command keeps the invariants. -/
theorem State.kept_effect (s : State) (c : Instr) : s.Kept (s.effect c) := by
  cases c with
  | powerOn => exact s.kept_powerOn.arbitrate
  | resetAssert => exact s.kept_onResetAssert
  | resetRelease => exact s.kept_onResetRelease
  | fsEdge => exact s.kept_onFsEdge
  | drEdge => exact s.kept_onDrEdge
  | lossDeadlineExpiry ch => exact s.kept_onLossDeadlineExpiry ch
  | bandExpiry => exact .ite fun _ => s.keeps_expireBand.kept.conclude
  | initWriteDone => exact s.kept_onInitWriteDone
  | settleExpiry => exact .ite fun _ => s.keeps_portIdle.kept.arbitrate
  | readComplete bytes => exact s.kept_onReadComplete bytes
  | mediaHeader h => exact .ite fun _ => (s.keeps_judgeMedia h).kept.conclude
  | mediaPayloadComplete payload => exact s.kept_onMediaPayloadComplete payload
  | latencyExpiry => exact .ite fun _ => State.Kept.conclude (.quiet rfl rfl rfl)
  | malformedPacket h => exact .ite fun _ => (s.keeps_consumeMalformed h).kept.arbitrate
  | clipStart p => exact (s.kept_takeCommand p 1 5 fun u => u.keeps_clipStart _).conclude
  | clipStop p => exact (s.kept_takeCommand p 2 0 fun u => u.keeps_clipStop).conclude
  | flush p => exact (s.kept_takeCommand p 3 0 fun u => u.keeps_flushCommand).conclude
  | segmentFree p => exact (s.kept_takeCommand p 4 1 fun u => u.keeps_segmentFree _).arbitrate
  | segmentProtect p => exact (s.kept_takeCommand p 5 1 fun u => u.keeps_segmentProtect _).arbitrate
  | segmentUnprotect p => exact (s.kept_takeCommand p 6 1 fun u => u.keeps_segmentUnprotect _).arbitrate
  | motionStart p => exact (s.kept_takeCommand p 7 0 fun u => u.keeps_motionStart).arbitrate
  | motionStop p => exact (s.kept_takeCommand p 8 0 fun u => u.keeps_motionStop).arbitrate
  | chargeInhibit p => exact (s.kept_takeCommand p 9 0 fun u => u.keeps_chargeInhibit).arbitrate
  | chargeAllow p => exact (s.kept_takeCommand p 10 0 fun u => u.keeps_chargeAllow).arbitrate
  | chargeClear p => exact (s.kept_takeCommand p 11 0 fun u => u.keeps_chargeClear).arbitrate
  | inputLimit p => exact (s.kept_takeCommand p 12 2 fun u => .quiet rfl rfl rfl).arbitrate
  | cardRetry p => exact (s.kept_takeCommand p 13 0 fun u => u.keeps_cardRetry).arbitrate
  | logClear p => exact (s.kept_takeCommand p 14 0 fun u => u.keeps_logClear).arbitrate
  | status p => exact (s.kept_takeCommand p 15 0 fun u => u.keeps_snapshot).arbitrate
  | park p => exact (s.kept_takeCommand p 16 0 fun u => u.keeps_parkCommand).arbitrate
  | restart p => exact s.kept_onRestart p
  | unknownCommand p => exact (s.kept_takeRequest p _ _ (.refl _)).arbitrate
  | windowLoad p => exact (s.kept_takeLoad p 1 _ fun u => u.keeps_loadWindow p).arbitrate
  | segmentLoad p => exact (s.kept_takeLoad p 2 _ fun u => u.keeps_loadSegments p).arbitrate
  | biasLoad p => exact (s.kept_takeLoad p 3 _ fun u => u.keeps_motion _).arbitrate
  | mountLoad p => exact (s.kept_takeLoad p 4 _ fun u => u.keeps_loadMount p).arbitrate
  | lensLoad p => exact (s.kept_takeLoad p 5 _ fun u => u.keeps_motion _).arbitrate
  | motionCfgLoad p => exact (s.kept_takeLoad p 6 _ fun u => u.keeps_loadMotionCfg p).arbitrate
  | clipCfgLoad p => exact (s.kept_takeLoad p 7 _ fun u => u.keeps_loadClipCfg p).arbitrate
  | chargeProfileLoad p => exact (s.kept_takeLoad p 8 _ fun u => u.keeps_loadChargeProfile p).arbitrate
  | ocvLoad p => exact (s.kept_takeLoad p 9 _ fun u => u.keeps_loadOcv p).arbitrate
  | budgetCfgLoad p => exact (s.kept_takeLoad p 10 _ fun u => u.keeps_loadBudgetCfg p).arbitrate
  | tableLoadOther p => exact (s.kept_takeRequest p _ _ (.refl _)).arbitrate
  | tableRead p => exact (s.kept_takeRequest p _ _ (State.keeps_readTable _ p)).arbitrate
  | returnPacketSent => exact State.Kept.arbitrate (.quiet rfl rfl rfl)
  | claimAssert => exact s.kept_onClaimAssert
  | claimRelease => exact s.kept_onClaimRelease
  | cdetChange card => exact s.kept_onCdetChange card
  | cardInsertion => exact s.kept_onCardInsertion
  | cardRemoval =>
    exact .ite fun _ => (((s.keeps_setPresence false).trans (State.keeps_enterGranted _)).trans
      (State.keeps_removeCard _)).kept.conclude
  | identifyResponse capacity => exact s.kept_onIdentifyResponse capacity
  | cardStatusResponse ready => exact s.kept_onCardStatusResponse ready
  | wakeAck => exact s.kept_onWakeAck
  | sleepAck => exact s.kept_onSleepAck
  | enterRun => exact .ite fun h => (s.keeps_enterRunState h).kept.conclude
  | openRunAck => exact s.kept_onOpenRunAck
  | blockToken accepted => exact s.kept_onBlockToken accepted
  | busyEnd programmed => exact s.kept_onBusyEnd programmed
  | closeRunAck => exact s.kept_onCloseRunAck
  | cardTimeout => exact s.kept_onCardTimeout
  | busyTimeout => exact s.kept_onBusyTimeout
  | shockHoldExpiry => exact .ite fun _ => s.keeps_endShockHold.kept.conclude
  | monitorUpdate conv => exact .ite fun _ => (s.keeps_monitorUpdate conv).kept.arbitrate
  | emergencyClose => exact s.kept_onEmergencyClose

/-- A step keeps the invariants. -/
theorem step_kept (h : step s = .next t) : s.Kept t := by
  unfold step at h
  split at h
  · cases h
    unfold State.tick
    split
    · exact .refl s
    · exact .quiet rfl rfl rfl
  · rename_i c rest _
    rw [exec_eq] at h
    cases h
    exact .trans (t := { s with pending := rest }) (.quiet rfl rfl rfl) (State.kept_effect _ c)

/-- Settles O59: the charge controller and the setpoint move together, a setpoint is moved under the ceiling of the stage
just decided, and a stage left for HOLD or at rest takes the setpoint to 0. -/
theorem setpointKept : Obligations.SetpointKept := fun _ _ h hs => (step_kept hs).power h

/-- Settles O57: a slot becomes FILLING only as the one that a clip goes on in, once the one before it has left FILLING; a
clip ends with its queue empty and its accumulator closed; and a protection is granted within the limit alone. -/
theorem clipKept : Obligations.ClipKept := fun _ _ h1 h2 h3 hs => (step_kept hs).clip ⟨h1, h2, h3⟩

/-- Settles O58: RUN is entered with a grant held and left before the grant goes; each list of the card and of the link
grows only below its size, and a notice joins the entry of its kind. -/
theorem cardAndLinkKept : Obligations.CardAndLinkKept := fun _ _ h1 h2 h3 hs =>
  ⟨(step_kept hs).run h1, (step_kept hs).card h2, (step_kept hs).link h3⟩

/-! ### The HOLD line -/

/-- The end of an event leaves HOLD as the buffer's shortage of room has it. -/
theorem State.conclude_hold (s : State) : s.conclude.buffer.hold = s.conclude.buffer.short := by
  rw [(conclude_spec s).2.2.2.2.2.2.2.2.2.1, settle_hold]

theorem State.portIdle_buffer (s : State) : s.portIdle.buffer = s.buffer := rfl

theorem State.settleUntil_buffer (s : State) (due : Time) : (s.settleUntil due).buffer = s.buffer := by
  unfold State.settleUntil; split <;> rfl

theorem State.startInit_buffer (s : State) (due : Time) : (s.startInit due).buffer = s.buffer := by
  unfold State.startInit
  simp only
  split
  · rfl
  · rw [State.settleUntil_buffer]

theorem State.nextPair_buffer (s : State) (i : Nat) : (s.nextPair i).buffer = s.buffer := by
  unfold State.nextPair
  split
  · rfl
  · rw [State.settleUntil_buffer]

theorem State.endStale_buffer (s : State) : s.endStale.buffer = s.buffer := by
  unfold State.endStale
  simp only
  split
  · rw [State.startInit_buffer]; rfl
  · rfl

theorem State.raiseIf_buffer (s : State) (b : Bool) (n : Notice) : (s.raiseIf b n).buffer = s.buffer := by
  unfold State.raiseIf; split <;> rfl

theorem State.judged_buffer (s : State) (ch : Channel) (x : Capture) (time : Time) :
    (s.judged ch x time).buffer = s.buffer := s.setChannel ch x |>.raiseIf_buffer _ _

theorem State.consumeMalformed_buffer (s : State) (h : Header) : (s.consumeMalformed h).buffer = s.buffer := by
  unfold State.consumeMalformed State.reportMalformed State.chooseFree
  split
  · rfl
  · rfl
  · rfl
  · simp only; split <;> rfl

theorem State.takeRequest_buffer (s : State) (p : Packet) (sel : Bool) (k : RequestKind) {body : State → Executed}
    (hb : (body s.received).1.buffer = s.buffer) : (s.takeRequest p sel k body).buffer = s.buffer := by
  rcases takeRequest_cases s p sel k body with ⟨-, h⟩ | ⟨-, h⟩ | ⟨-, -, -, h⟩ <;> rw [h]
  · rfl
  · exact hb

theorem State.takeCommand_buffer (s : State) (p : Packet) (code n : Nat) {body : State → Executed}
    (hb : ∀ u : State, (body u).1.buffer = u.buffer) : (s.takeCommand p code n body).buffer = s.buffer := by
  refine s.takeRequest_buffer p _ _ ?_
  split
  · exact hb _
  · rfl

theorem State.takeLoad_buffer (s : State) (p : Packet) (table : Nat) (fits : Bool) {body : State → Executed}
    (hb : ∀ u : State, (body u).1.buffer = u.buffer) : (s.takeLoad p table fits body).buffer = s.buffer := by
  refine s.takeRequest_buffer p _ _ ?_
  split
  · exact hb _
  · rfl

theorem State.chargeInhibit_only (s : State) : s.PowerOnly s.chargeInhibit.1 := by
  unfold State.chargeInhibit
  simp only
  split
  · exact .trans (t := { s with charge := s.charge.setInhibit true }) ⟨_, rfl⟩
      ((State.charges_enterHold _).trans (State.charges_updateCeiling _)).only
  · exact ⟨_, rfl⟩

theorem State.chargeAllow_only (s : State) : s.PowerOnly s.chargeAllow.1 := by
  unfold State.chargeAllow
  simp only
  split
  · exact .trans (t := { s with charge := s.charge.setInhibit false }) ⟨_, rfl⟩
      ((State.charges_leaveHold _).trans (State.charges_updateCeiling _)).only
  · exact ⟨_, rfl⟩

theorem State.chargeClear_only (s : State) : s.PowerOnly s.chargeClear.1 := by
  unfold State.chargeClear
  simp only
  split
  · exact ((State.charges_enterStage _ _ _ _).trans (State.charges_updateCeiling _)).only
  · exact .refl s

theorem State.profileCause_only (s : State) : s.PowerOnly s.profileCause := by
  unfold State.profileCause
  simp only
  split
  · exact .refl s
  · split
    · exact ⟨_, rfl⟩
    · refine .trans ?_ ((State.charges_enterHold _).trans (State.charges_updateCeiling _)).only
      exact ⟨_, rfl⟩

theorem State.loadChargeProfile_only (s : State) (p : Packet) : s.PowerOnly (s.loadChargeProfile p).1 := by
  unfold State.loadChargeProfile
  simp only
  split
  · refine .trans ?_ (State.profileCause_only _)
    exact ⟨_, rfl⟩
  · exact .refl s

theorem State.snapshot_buffer (s : State) : s.snapshot.1.buffer = s.buffer := by
  obtain ⟨n, h⟩ := s.snapshot_state; rw [h]

theorem State.powerOn_hold (s : State) : s.powerOn.buffer.hold = s.powerOn.buffer.short := by
  have h : s.powerOn.buffer = ChunkBuffer.reset := by
    unfold State.powerOn
    simp only
    split
    · rfl
    · split <;> rfl
  rw [h]
  simp [ChunkBuffer.short, ChunkBuffer.freeDescriptors, ChunkBuffer.reset]

theorem State.hostReset_hold (s : State) : s.hostReset.buffer.hold = s.hostReset.buffer.short := by
  unfold State.hostReset
  simp [ChunkBuffer.short, ChunkBuffer.freeDescriptors, ChunkBuffer.hostReset, ChunkBuffer.reset]

/-- HOLD asserted exactly while the buffer is short of room stays so over an event. -/
def State.HoldKept (s t : State) : Prop := s.buffer.hold = s.buffer.short → t.buffer.hold = t.buffer.short

theorem State.HoldKept.of_buffer (h : t.buffer = s.buffer) : s.HoldKept t := fun k => by rw [h]; exact k

theorem State.HoldKept.arbitrate (h : t.buffer = s.buffer) : s.HoldKept t.arbitrate :=
  .of_buffer ((arbitrate_buffer t).trans h)

theorem State.HoldKept.conclude (s t : State) : s.HoldKept t.conclude := fun _ => t.conclude_hold

theorem State.HoldKept.refl (s : State) : s.HoldKept s := id

theorem State.HoldKept.ite {c : Prop} [Decidable c] (h : s.HoldKept t) : s.HoldKept (if c then t else s) := by
  split
  · exact h
  · exact .refl s

/-- A command of no bearing on the chunk buffer. -/
theorem State.HoldKept.command (p : Packet) (code n : Nat) {body : State → Executed}
    (hb : ∀ u : State, (body u).1.buffer = u.buffer) : s.HoldKept (s.takeCommand p code n body).arbitrate :=
  .arbitrate (s.takeCommand_buffer p code n hb)

theorem State.HoldKept.load (p : Packet) (table : Nat) (fits : Bool) {body : State → Executed}
    (hb : ∀ u : State, (body u).1.buffer = u.buffer) : s.HoldKept (s.takeLoad p table fits body).arbitrate :=
  .arbitrate (s.takeLoad_buffer p table fits hb)

theorem State.holdKept_onPowerOn (s : State) : s.HoldKept s.onPowerOn := fun _ => by
  unfold State.onPowerOn
  rw [arbitrate_buffer]
  exact s.powerOn_hold

theorem State.holdKept_onResetAssert (s : State) : s.HoldKept s.onResetAssert := by
  unfold State.onResetAssert
  split
  · exact .refl s
  · exact fun _ => State.hostReset_hold _

theorem State.holdKept_onFsEdge (s : State) : s.HoldKept s.onFsEdge := by
  unfold State.onFsEdge
  simp only
  split
  · exact .refl s
  · split
    · exact .conclude _ _
    · exact .of_buffer rfl

theorem State.holdKept_onDrEdge (s : State) : s.HoldKept s.onDrEdge := by
  unfold State.onDrEdge
  simp only
  split
  · exact .refl s
  · refine .arbitrate ?_
    dsimp only
    split
    · exact State.judged_buffer _ _ _ _
    · rfl

theorem State.holdKept_onLossDeadlineExpiry (ch : Channel) (s : State) : s.HoldKept (s.onLossDeadlineExpiry ch) := by
  unfold State.onLossDeadlineExpiry
  split
  · exact .refl s
  · exact .ite (.arbitrate (s.judged_buffer _ _ _))

theorem State.holdKept_onInitWriteDone (s : State) : s.HoldKept s.onInitWriteDone := by
  unfold State.onInitWriteDone
  split
  · refine .arbitrate ?_
    split
    · exact s.endStale_buffer
    · exact s.nextPair_buffer _
  · exact .refl s
  · exact .refl s

theorem State.holdKept_onReadComplete (bytes : List Byte) (s : State) : s.HoldKept (s.onReadComplete bytes) := by
  unfold State.onReadComplete
  split
  · split
    · exact .arbitrate s.endStale_buffer
    · exact .conclude _ _
  · exact .refl s
  · exact .refl s

theorem State.holdKept_onMediaPayloadComplete (payload : List Byte) (s : State) :
    s.HoldKept (s.onMediaPayloadComplete payload) := by
  unfold State.onMediaPayloadComplete State.payloadArrived
  split
  · exact .refl s
  · split
    · exact .refl s
    · exact .ite (.of_buffer rfl)
    · refine .ite ?_
      split
      · exact .of_buffer rfl
      · exact .conclude _ _

theorem State.holdKept_onRestart (p : Packet) (s : State) : s.HoldKept (s.onRestart p) := by
  unfold State.onRestart
  split
  · intro _
    rw [arbitrate_buffer]
    exact s.hostReset_hold
  · exact .command p 17 0 fun _ => rfl

theorem State.holdKept_onClaimRelease (s : State) : s.HoldKept s.onClaimRelease := by
  unfold State.onClaimRelease
  simp only
  split
  · split
    · exact .conclude _ _
    · exact .of_buffer rfl
  · exact .refl s

theorem State.holdKept_onCdetChange (level : Bool) (s : State) : s.HoldKept (s.onCdetChange level) := by
  unfold State.onCdetChange
  split
  · exact .refl s
  · exact .of_buffer rfl

theorem State.holdKept_onIdentifyResponse (cap : Word32) (s : State) : s.HoldKept (s.onIdentifyResponse cap) := by
  unfold State.onIdentifyResponse
  split
  · split
    · exact .refl s
    · exact .conclude _ _
  · exact .refl s

theorem State.holdKept_onCardStatusResponse (ready : Bool) (s : State) : s.HoldKept (s.onCardStatusResponse ready) := by
  unfold State.onCardStatusResponse
  split
  · exact .conclude _ _
  · exact .refl s

theorem State.holdKept_onWakeAck (s : State) : s.HoldKept s.onWakeAck := by
  unfold State.onWakeAck
  split
  · exact .conclude _ _
  · exact .refl s

theorem State.holdKept_onSleepAck (s : State) : s.HoldKept s.onSleepAck := by
  unfold State.onSleepAck
  split
  · exact .conclude _ _
  · exact .refl s

theorem State.holdKept_onOpenRunAck (s : State) : s.HoldKept s.onOpenRunAck := by
  unfold State.onOpenRunAck
  split
  · exact .conclude _ _
  · exact .refl s

theorem State.holdKept_onBlockToken (accepted : Bool) (s : State) : s.HoldKept (s.onBlockToken accepted) := by
  unfold State.onBlockToken
  split
  · exact .conclude _ _
  · exact .refl s

theorem State.holdKept_onBusyEnd (programmed : Bool) (s : State) : s.HoldKept (s.onBusyEnd programmed) := by
  unfold State.onBusyEnd
  split
  · exact .conclude _ _
  · exact .refl s

theorem State.holdKept_onCloseRunAck (s : State) : s.HoldKept s.onCloseRunAck := by
  unfold State.onCloseRunAck
  split
  · exact .conclude _ _
  · exact .refl s

theorem State.holdKept_onBusyTimeout (s : State) : s.HoldKept s.onBusyTimeout := by
  unfold State.onBusyTimeout
  split
  · exact .conclude _ _
  · exact .refl s

theorem State.holdKept_onCardTimeout (s : State) : s.HoldKept s.onCardTimeout := by
  unfold State.onCardTimeout
  split
  · exact .refl s
  · exact .refl s
  · exact .conclude _ _

theorem State.holdKept_onClaimAssert (s : State) : s.HoldKept s.onClaimAssert := by
  unfold State.onClaimAssert
  split
  · exact .refl s
  · exact .conclude _ _

theorem State.holdKept_onEmergencyClose (s : State) : s.HoldKept s.onEmergencyClose := by
  unfold State.onEmergencyClose State.takeOrder
  refine .ite ?_
  simp only
  split
  iterate 3 · exact .conclude _ _
  all_goals exact .of_buffer rfl

theorem State.segmentFree_buffer (s : State) (i : Nat) : (s.segmentFree i).1.buffer = s.buffer := by
  unfold State.segmentFree; simp only; repeat' split
  all_goals rfl

theorem State.segmentProtect_buffer (s : State) (i : Nat) : (s.segmentProtect i).1.buffer = s.buffer := by
  unfold State.segmentProtect; simp only; repeat' split
  all_goals rfl

theorem State.segmentUnprotect_buffer (s : State) (i : Nat) : (s.segmentUnprotect i).1.buffer = s.buffer := by
  unfold State.segmentUnprotect; split <;> rfl

theorem State.motionStart_buffer (s : State) : s.motionStart.1.buffer = s.buffer := by
  unfold State.motionStart
  simp only
  split
  · rfl
  · split
    · rfl
    · exact State.startInit_buffer _ _

theorem State.motionStop_buffer (s : State) : s.motionStop.1.buffer = s.buffer := by
  unfold State.motionStop; simp only; repeat' split
  all_goals rfl

theorem State.cardRetry_buffer (s : State) : s.cardRetry.1.buffer = s.buffer := by
  unfold State.cardRetry; split <;> rfl

theorem State.parkCommand_buffer (s : State) : s.parkCommand.1.buffer = s.buffer := by
  unfold State.parkCommand State.enterPark; simp only; repeat' split
  all_goals rfl

theorem State.loadWindow_buffer (s : State) (p : Packet) : (s.loadWindow p).1.buffer = s.buffer := by
  unfold State.loadWindow; split <;> rfl

theorem State.loadSegments_buffer (s : State) (p : Packet) : (s.loadSegments p).1.buffer = s.buffer := by
  unfold State.loadSegments; simp only; repeat' split
  all_goals rfl

theorem State.loadMount_buffer (s : State) (p : Packet) : (s.loadMount p).1.buffer = s.buffer := by
  unfold State.loadMount; split <;> rfl

theorem State.loadMotionCfg_buffer (s : State) (p : Packet) : (s.loadMotionCfg p).1.buffer = s.buffer := by
  unfold State.loadMotionCfg; simp only; repeat' split
  all_goals rfl

theorem State.loadClipCfg_buffer (s : State) (p : Packet) : (s.loadClipCfg p).1.buffer = s.buffer := by
  unfold State.loadClipCfg; simp only; repeat' split
  all_goals rfl

theorem State.loadOcv_buffer (s : State) (p : Packet) : (s.loadOcv p).1.buffer = s.buffer := by
  unfold State.loadOcv; simp only; split <;> rfl

theorem State.loadBudgetCfg_buffer (s : State) (p : Packet) : (s.loadBudgetCfg p).1.buffer = s.buffer := by
  unfold State.loadBudgetCfg; simp only; split <;> rfl

theorem State.readTable_buffer (s : State) (p : Packet) : (s.readTable p).1.buffer = s.buffer := by
  unfold State.readTable
  simp only
  split
  · rfl
  · dsimp only
    split
    · exact s.snapshot_buffer
    · rfl

/-- Every command keeps HOLD: the events that can move the buffer bring it up to date at their end, and the rest leave the
buffer as it was. -/
theorem State.holdKept_effect (s : State) (c : Instr) : s.HoldKept (s.effect c) := by
  cases c with
  | powerOn => exact s.holdKept_onPowerOn
  | resetAssert => exact s.holdKept_onResetAssert
  | resetRelease => exact .ite (.arbitrate rfl)
  | fsEdge => exact s.holdKept_onFsEdge
  | drEdge => exact s.holdKept_onDrEdge
  | lossDeadlineExpiry ch => exact s.holdKept_onLossDeadlineExpiry ch
  | bandExpiry => exact .ite (.conclude _ _)
  | initWriteDone => exact s.holdKept_onInitWriteDone
  | settleExpiry => exact .ite (.arbitrate s.portIdle_buffer)
  | readComplete bytes => exact s.holdKept_onReadComplete bytes
  | mediaHeader h => exact .ite (.conclude _ _)
  | mediaPayloadComplete payload => exact s.holdKept_onMediaPayloadComplete payload
  | latencyExpiry => exact .ite (.conclude _ _)
  | malformedPacket h => exact .ite (.arbitrate (s.consumeMalformed_buffer h))
  | clipStart p => exact .conclude _ _
  | clipStop p => exact .conclude _ _
  | flush p => exact .conclude _ _
  | segmentFree p => exact .command p 4 1 fun u => u.segmentFree_buffer _
  | segmentProtect p => exact .command p 5 1 fun u => u.segmentProtect_buffer _
  | segmentUnprotect p => exact .command p 6 1 fun u => u.segmentUnprotect_buffer _
  | motionStart p => exact .command p 7 0 fun u => u.motionStart_buffer
  | motionStop p => exact .command p 8 0 fun u => u.motionStop_buffer
  | chargeInhibit p => exact .command p 9 0 fun u => u.chargeInhibit_only.buffer
  | chargeAllow p => exact .command p 10 0 fun u => u.chargeAllow_only.buffer
  | chargeClear p => exact .command p 11 0 fun u => u.chargeClear_only.buffer
  | inputLimit p => exact .command p 12 2 fun _ => rfl
  | cardRetry p => exact .command p 13 0 fun u => u.cardRetry_buffer
  | logClear p => exact .command p 14 0 fun _ => rfl
  | status p => exact .command p 15 0 fun u => u.snapshot_buffer
  | park p => exact .command p 16 0 fun u => u.parkCommand_buffer
  | restart p => exact s.holdKept_onRestart p
  | unknownCommand p => exact .arbitrate (s.takeRequest_buffer p _ _ rfl)
  | windowLoad p => exact .load p 1 _ fun u => u.loadWindow_buffer p
  | segmentLoad p => exact .load p 2 _ fun u => u.loadSegments_buffer p
  | biasLoad p => exact .load p 3 _ fun _ => rfl
  | mountLoad p => exact .load p 4 _ fun u => u.loadMount_buffer p
  | lensLoad p => exact .load p 5 _ fun _ => rfl
  | motionCfgLoad p => exact .load p 6 _ fun u => u.loadMotionCfg_buffer p
  | clipCfgLoad p => exact .load p 7 _ fun u => u.loadClipCfg_buffer p
  | chargeProfileLoad p => exact .load p 8 _ fun u => (u.loadChargeProfile_only p).buffer
  | ocvLoad p => exact .load p 9 _ fun u => u.loadOcv_buffer p
  | budgetCfgLoad p => exact .load p 10 _ fun u => u.loadBudgetCfg_buffer p
  | tableLoadOther p => exact .arbitrate (s.takeRequest_buffer p _ _ rfl)
  | tableRead p => exact .arbitrate (s.takeRequest_buffer p _ _ (State.readTable_buffer _ p))
  | returnPacketSent => exact .arbitrate rfl
  | claimAssert => exact s.holdKept_onClaimAssert
  | claimRelease => exact s.holdKept_onClaimRelease
  | cdetChange card => exact s.holdKept_onCdetChange card
  | cardInsertion => exact .ite (.conclude _ _)
  | cardRemoval => exact .ite (.conclude _ _)
  | identifyResponse capacity => exact s.holdKept_onIdentifyResponse capacity
  | cardStatusResponse ready => exact s.holdKept_onCardStatusResponse ready
  | wakeAck => exact s.holdKept_onWakeAck
  | sleepAck => exact s.holdKept_onSleepAck
  | enterRun => exact .ite (.conclude _ _)
  | openRunAck => exact s.holdKept_onOpenRunAck
  | blockToken accepted => exact s.holdKept_onBlockToken accepted
  | busyEnd programmed => exact s.holdKept_onBusyEnd programmed
  | closeRunAck => exact s.holdKept_onCloseRunAck
  | cardTimeout => exact s.holdKept_onCardTimeout
  | busyTimeout => exact s.holdKept_onBusyTimeout
  | shockHoldExpiry => exact .ite (.conclude _ _)
  | monitorUpdate conv => exact .ite (.arbitrate (s.monitorUpdate_only conv).buffer)
  | emergencyClose => exact s.holdKept_onEmergencyClose

/-- A step keeps HOLD. -/
theorem step_holdKept (h : step s = .next t) : s.HoldKept t := by
  unfold step at h
  split at h
  · cases h
    unfold State.tick
    split
    · exact .refl s
    · exact .of_buffer rfl
  · rename_i c rest _
    rw [exec_eq] at h
    cases h
    exact State.holdKept_effect { s with pending := rest } c

/-- Settles O56: a descriptor takes its pages from the free list and returns them as it leaves, counted as it joins and as
it leaves; and each event that can move the buffer ends with HOLD brought up to date. -/
theorem bufferKept : Obligations.BufferKept := by
  rintro s t h1 h2 ⟨h3, h4, h5⟩ hs
  obtain ⟨k1, k2, k3, k4⟩ := (step_kept hs).buffer ⟨h1, h2, h3, h5⟩
  exact ⟨k1, k2, k3, step_holdKept hs h4, k4⟩

end Sys2Proof.Machine
end


section
/-! SUPPORT. The machine's step, the ride clock, the notice set, the arbiter, and the state after reset. -/
namespace Sys2Proof.Machine

variable {s : State}

/-! ### Steps -/

/-- Settles O1: by the step's own case. -/
theorem stepRunsFront : Obligations.StepRunsFront := by
  intro s c rest h
  simp only [step, h]

/-- Settles O3: each row's meaning is its effect. -/
theorem noCommandStops : Obligations.NoCommandStops := fun c s => ⟨s.effect c, exec_eq c s⟩

@[simp] theorem mem_commandIf (b : Bool) (c x : Instr) : x ∈ commandIf b c ↔ b = true ∧ x = c := by
  cases b <;> simp [commandIf]

theorem commandIf_append_sublist (b : Bool) (c : Instr) {l l' : List Instr} (h : List.Sublist l l') :
    List.Sublist (commandIf b c ++ l) (c :: l') := by
  cases b
  · exact h.cons c
  · exact h.cons_cons c

/-- No event is due twice at one clock value: the events due are some of twelve different ones, in one order. -/
theorem State.dueCommands_nodup (s : State) : s.dueCommands.Nodup := by
  have h : s.dueCommands.Sublist [.lossDeadlineExpiry .fs, .lossDeadlineExpiry .dr, .bandExpiry, .settleExpiry,
      .latencyExpiry, .shockHoldExpiry, .cardInsertion, .cardRemoval, .cardTimeout, .busyTimeout, .enterRun,
      .emergencyClose] := by
    unfold State.dueCommands
    rw [← List.append_nil (_ ++ _)]
    simp only [List.append_assoc]
    iterate 12 refine commandIf_append_sublist _ _ ?_
    exact List.Sublist.refl []
  exact h.nodup (by decide)

/-- Settles O2: the events due are those of the list of `State.dueCommands`, each under its own condition. -/
theorem idleStepTicks : Obligations.IdleStepTicks := by
  intro s hp
  have hstep : step s = .next s.tick := by simp only [step, hp]
  refine ⟨fun h => ?_, fun h => ⟨s.advance, ?_, rfl, ?_⟩⟩
  · rw [hstep, State.tick, if_pos (show s.passEnded = true from h)]
  · rw [hstep, State.tick, if_neg (by rw [show s.passEnded = false from h]; decide)]
  · have hd : s.advance.pending = s.advance.dueCommands := rfl
    rw [hd]
    refine ⟨fun ch => by cases ch <;> simp [State.dueCommands], ?_, ?_, ?_, ?_, ?_, ?_, ?_, ?_, ?_, ?_,
      s.advance.dueCommands_nodup, fun c hc => ?_⟩
    iterate 10 simp [State.dueCommands]
    simp only [State.dueCommands, List.mem_append, mem_commandIf] at hc
    simp only [List.mem_cons]
    grind

/-- Settles O60: the reset state has what `step_kept` carries on; HOLD is released with every page free. -/
theorem resetHasInvariants : Obligations.ResetHasInvariants := by
  obtain ⟨b1, b2, b3, b4⟩ := reset_bufferSound
  obtain ⟨c1, c2, c3⟩ := reset_clipSound
  refine ⟨b1, b2, ⟨b3, ?_, b4⟩, c1, c2, c3, (fun h => by cases h), reset_cardBounded, reset_setpointBounded,
    reset_linkBounded⟩
  simp [State.reset, ChunkBuffer.reset, ChunkBuffer.short, ChunkBuffer.freeDescriptors]

/-! ### The ride clock (R1) -/

/-- Time that has passed is measured back whole while it stays below a turn of the clock. -/
theorem later_sub_toNat (t : Time) {u : Nat} (h : u < 2 ^ 40) : (later t u - t).toNat = u := by
  unfold later
  rw [BitVec.add_comm, BitVec.add_sub_cancel, BitVec.toNat_ofNat, Nat.mod_eq_of_lt h]

/-- Seen from an earlier value, a later one lies the rest of the clock's turn behind it. -/
theorem sub_later_toNat (t : Time) {u : Nat} (h1 : 1 ≤ u) (h : u < 2 ^ 40) : (t - later t u).toNat = 2 ^ 40 - u := by
  have hu := later_sub_toNat t h
  generalize later t u = x at hu ⊢
  bv_omega

/-- Settles O8: the two distances add up to a whole turn of the clock. -/
theorem clockComparison : Obligations.ClockComparison := by
  intro t u
  refine ⟨fun h => ?_, fun h1 h => ?_⟩
  · have hu := later_sub_toNat t (u := u) (by omega)
    unfold atOrAfter validDiff
    rw [hu, if_pos h]
    exact ⟨decide_eq_true h, rfl⟩
  · have hu := sub_later_toNat t h1 (by omega)
    have hn : ¬ 2 ^ 40 - u < 2 ^ 39 := by omega
    unfold atOrAfter validDiff
    rw [hu, if_neg hn]
    exact ⟨decide_eq_false hn, rfl⟩

/-! ### The notice set (R166) -/

theorem noticeAdd_new {ns : List NoticeEntry} {n : Notice} (h : ∀ e ∈ ns, e.notice.kind ≠ n.kind) :
    noticeAdd ns n = ns ++ [⟨1, n⟩] := by
  unfold noticeAdd
  rw [if_neg (by simpa using h)]

theorem noticeAdd_join {a b : List NoticeEntry} {e : NoticeEntry} {n : Notice} (he : e.notice.kind = n.kind)
    (h : ∀ x ∈ a ++ b, x.notice.kind ≠ n.kind) :
    noticeAdd (a ++ e :: b) n = a ++ ⟨min (e.count + 1) 65535, n⟩ :: b := by
  have kept {l : List NoticeEntry} (hl : ∀ x ∈ l, x.notice.kind ≠ n.kind) :
      l.map (fun e => if e.notice.kind = n.kind then ⟨min (e.count + 1) 65535, n⟩ else e) = l :=
    (List.map_congr_left fun x hx => if_neg (hl x hx)).trans (List.map_id l)
  unfold noticeAdd
  rw [if_pos (by simp [he]), List.map_append, List.map_cons, if_pos he,
    kept fun x hx => h x (List.mem_append_left b hx), kept fun x hx => h x (List.mem_append_right a hx)]

/-- Settles O55. -/
theorem noticeRaised : Obligations.NoticeRaised := by
  refine fun s n => ⟨fun h => ?_, fun a e b hs he h => ?_⟩
  · rw [State.raise, noticeAdd_new h]
  · rw [State.raise, hs, noticeAdd_join he h]

/-! ### The arbiter (R167) -/

/-- With no answer ready at the head of the outstanding list a notice may leave. -/
theorem State.sendAnswer_waiting
    (h : ∀ r rs, s.link.outstanding = r :: rs → r.answer = .awaitStart ∨ r.answer = .awaitStop) :
    s.sendAnswer = s.sendNotice := by
  unfold State.sendAnswer
  cases hl : s.link.outstanding with
  | nil => rfl
  | cons r rs => rcases h r rs hl with ha | ha <;> simp only [ha]

/-- Settles O5: the arbiter runs with the direction just freed. -/
theorem arbiterChooses : Obligations.ArbiterChooses := by
  intro s hr
  refine ⟨s.effect .returnPacketSent, exec_eq _ s, fun r rs h => ?_, fun h => ⟨fun r rs code data ho ha => ?_, fun ho =>
    ⟨fun e es hn => ?_, fun hn => ?_⟩⟩⟩
  all_goals simp only [State.effect, State.onReturnPacketSent, State.arbitrate, hr, h]
  · rfl
  · simp only [State.sendAnswer, ho, ha]
    rfl
  all_goals
    simp only [Option.isSome_none, Bool.or_self, Bool.false_eq_true, if_false]
    rw [State.sendAnswer_waiting (by exact ho)]
    simp only [State.sendNotice, hn]
  rfl

end Sys2Proof.Machine
end


section
/-! SUPPORT. The motion computer: calibration, the gap rule, one integrator step and its bounds, the shock detector. -/
namespace Sys2Proof.Machine

/-! ### The shock detector (R57, R58) -/

/-- Settles O23: the cases of the judgement, in the order of its conditions. -/
theorem shockDetection : Obligations.ShockDetection := by
  intro d cfg x
  refine ⟨by simp [Sample.high, Sample.m2], fun high => ⟨?_, fun h => ?_, fun ha hh hr => ?_⟩, fun ha => ?_,
    fun ha => ⟨?_, fun h => ?_, fun h => ?_⟩, rfl, rfl⟩
  · simp [ShockDetector.fires, and_assoc]
  · obtain ⟨⟨ha, rfl⟩, hr⟩ : (d.armed = true ∧ high = true) ∧ cfg.shockRun ≤ d.highRun + 1 := by
      simpa [ShockDetector.fires] using h
    simp [ShockDetector.judge, ha, hr]
  · simp [ShockDetector.judge, ha, hh, Nat.not_le.mpr hr]
  · simp [ShockDetector.judge, ha]
  · simp [ShockDetector.judge, ha]
  · simp [ShockDetector.judge, ha, h]
  · simp [ShockDetector.judge, ha, Nat.not_le.mpr h]

/-! ### The gap rule (R29) -/

/-- Beyond one and a half periods the distance rounds to two periods at least. -/
theorem roundedPeriods_bounds {d p : Nat} (hp : 0 < p) (hd : 3 * p < 2 * d) :
    let m := (2 * d + p) / (2 * p) - 1
    1 ≤ m ∧ 2 * (m + 1) * p ≤ 2 * d + p ∧ 2 * d + p < 2 * (m + 2) * p := by
  have hle := Nat.div_mul_le_self (2 * d + p) (2 * p)
  have hlt := Nat.lt_div_mul_add (a := 2 * d + p) (show 0 < 2 * p by omega)
  have h2 : 2 ≤ (2 * d + p) / (2 * p) := (Nat.le_div_iff_mul_le (by omega)).mpr (by omega)
  generalize (2 * d + p) / (2 * p) = q at hle hlt h2 ⊢
  obtain ⟨m, rfl⟩ : ∃ m, q = m + 1 := ⟨q - 1, by omega⟩
  simp only [Nat.add_sub_cancel]
  have e1 : (m + 1) * (2 * p) = 2 * (m + 1) * p := by ring
  have e2 : 2 * (m + 2) * p = 2 * (m + 1) * p + 2 * p := by ring
  omega

/-- Settles O17: the distances below, between and beyond the rule's two bounds. -/
theorem gapMeasure : Obligations.GapMeasure := by
  intro g stamp period hp
  refine ⟨fun h => by simp only [GapState.measure, h], fun t h => ⟨fun hd => ?_, fun hv hd => ?_, fun hv hd => ?_⟩⟩
  · simp only [GapState.measure, h, validDiff, if_neg (Nat.not_lt.mpr hd)]
  · simp only [GapState.measure, h, validDiff, if_pos hv, if_pos hd]
  · refine ⟨_, ?_, roundedPeriods_bounds hp hd⟩
    simp only [GapState.measure, h, validDiff, if_pos hv, if_neg (Nat.not_le.mpr hd)]

/-! ### Clamps -/

theorem clampInt_of_lt {lo hi v : Int} (h : v < lo) : clampInt lo hi v = lo := if_pos h

theorem clampInt_of_gt {lo hi v : Int} (h : hi < v) (hl : lo ≤ hi) : clampInt lo hi v = hi := by
  rw [clampInt, if_neg (by omega), if_pos h]

theorem clampInt_of_mem {lo hi v : Int} (h1 : lo ≤ v) (h2 : v ≤ hi) : clampInt lo hi v = v := by
  rw [clampInt, if_neg (by omega), if_neg (by omega)]

theorem clampInt_eq_max_min {lo hi : Int} (v : Int) (h : lo ≤ hi) : clampInt lo hi v = max lo (min hi v) := by
  unfold clampInt
  split_ifs <;> omega

theorem marginClamp_natAbs_le (l : Nat) (c : Int) : (marginClamp l c).natAbs ≤ l := by
  rw [marginClamp, clampInt_eq_max_min c (by omega)]
  omega

theorem marginMark_iff (l : Nat) (c : Int) : marginMark l c = true ↔ l = 0 ∨ l < c.natAbs := by
  have hc : marginClamp l c = max (-(l : Int)) (min l c) := clampInt_eq_max_min c (by omega)
  rw [marginMark, hc, Bool.or_eq_true, decide_eq_true_eq, decide_eq_true_eq]
  omega

/-! ### Round half away of a part of a whole -/

theorem natAbs_roundHalfAway (a : Int) (b : Nat) : (roundHalfAway a b).natAbs = (2 * a.natAbs + b) / (2 * b) := by
  obtain ⟨m, rfl | rfl⟩ := a.eq_nat_or_neg
  · rw [roundHalfAway_natCast]
    rfl
  · rw [roundHalfAway_neg, Int.natAbs_neg, roundHalfAway_natCast, Int.natAbs_neg]
    rfl

theorem roundHalfAway_zero (b : Nat) : roundHalfAway 0 b = 0 := by simp [roundHalfAway]

/-- A fraction r/b of v rounds to a value between 0 and v. -/
theorem roundHalfAway_part_mem (v : Int) {r b : Nat} (hr : r ≤ b) (hb : 0 < b) :
    min 0 v ≤ roundHalfAway (v * r) b ∧ roundHalfAway (v * r) b ≤ max 0 v := by
  have part (m : Nat) : roundHalfAway ((m : Int) * r) b ≤ m ∧ 0 ≤ roundHalfAway ((m : Int) * r) b := by
    rw [← Nat.cast_mul, roundHalfAway_natCast]
    refine ⟨?_, by positivity⟩
    have hm : m * r ≤ m * b := Nat.mul_le_mul_left m hr
    have hd : (2 * (m * r) + b) / (2 * b) < m + 1 := by
      rw [Nat.div_lt_iff_lt_mul (by omega)]
      nlinarith
    omega
  obtain ⟨m, rfl | rfl⟩ := v.eq_nat_or_neg
  · have := part m
    omega
  · rw [neg_mul, roundHalfAway_neg]
    have := part m
    omega

/-! ### The interpolated bias (R21, R23) -/

theorem biasAt_of_le {t : Int} (p : List Int) (h : t ≤ -160) : biasAt p t = p.getD 0 0 := by
  have ht : clampInt (-160) 1120 t = -160 := by
    rw [clampInt_eq_max_min t (by omega)]
    omega
  simp only [biasAt, ht]
  simp [truncDiv, roundHalfAway_zero]

theorem biasAt_of_ge {t : Int} (p : List Int) (h : 1120 ≤ t) : biasAt p t = p.getD 8 0 := by
  have ht : clampInt (-160) 1120 t = 1120 := by
    rw [clampInt_eq_max_min t (by omega)]
    omega
  simp only [biasAt, ht]
  rw [if_pos (by decide)]

/-- Between two points of the table: r sixteenths of a degree after point i. -/
theorem biasAt_between (p : List Int) {i r : Nat} (hi : i < 8) (hr : r < 160) :
    biasAt p (-160 + 160 * (i : Int) + r) =
      p.getD i 0 + roundHalfAway ((p.getD (i + 1) 0 - p.getD i 0) * (r : Int)) 160 := by
  have ht : clampInt (-160) 1120 (-160 + 160 * (i : Int) + r) + 160 = ((160 * i + r : Nat) : Int) := by
    rw [clampInt_of_mem (by omega) (by omega)]
    push_cast
    ring
  have hq : (truncDiv ((160 * i + r : Nat) : Int) 160).toNat = i := by
    rw [show (160 : Int) = ((160 : Nat) : Int) from rfl, truncDiv_natCast]
    omega
  have hf : ((160 * i + r : Nat) : Int) - 160 * (i : Int) = r := by
    push_cast
    ring
  simp only [biasAt, ht, hq, if_neg (show i ≠ 8 by omega), hf]

theorem biasAt_point (p : List Int) {i : Nat} (hi : i < 9) : biasAt p (-160 + 160 * (i : Int)) = p.getD i 0 := by
  rcases Nat.lt_or_ge i 8 with h | h
  · have := biasAt_between p (r := 0) h (by decide)
    simpa [roundHalfAway_zero] using this
  · obtain rfl : i = 8 := by omega
    exact biasAt_of_ge p (by decide)

/-- Settles O16: the rates by definition; the bias at a point, outside the points and between two of them. -/
theorem calibratedRates : Obligations.CalibratedRates := by
  refine ⟨fun m x => ⟨?_, fun raw => by simp [gyroSaturated, or_assoc], ?_⟩, fun p _ => ⟨fun i hi => biasAt_point p hi,
    fun t h => biasAt_of_le p h, fun t h => biasAt_of_ge p h, fun i t hi h1 h2 => ?_⟩⟩
  · have mapped (src : MountSource) : m.mapped x src = (if src.negative then -1 else 1) *
        (16 * x.gyro src.axis - biasAt (biasPoints m.bias.active src.axis) x.temp) := by
      unfold MotionComputer.mapped MotionComputer.calibrated
      split <;> ring
    simp only [MotionComputer.rates, Tri.map, mapped]
  · simp [MotionComputer.saturated, Tri.map, Tri.or, or_assoc]
  · obtain ⟨r, hr⟩ : ∃ r : Nat, t = -160 + 160 * (i : Int) + r := ⟨(t + 160 - 160 * i).toNat, by omega⟩
    obtain hr160 : r < 160 := by omega
    obtain ⟨hlo, hhi⟩ := roundHalfAway_part_mem (p.getD (i + 1) 0 - p.getD i 0) (r := r) (b := 160) (by omega)
      (by decide)
    have hb := biasAt_between p hi hr160
    rw [← hr] at hb
    have hf : t + 160 - 160 * (i : Int) = r := by omega
    rw [hf, hb]
    refine ⟨?_, ?_, by ring⟩ <;> omega

/-! ### One integrator step (R34–R38, R46) -/

variable (a : LensAxis) (i : Integrator) (g : Int)

@[simp] theorem Integrator.guardWidth_err : i.guardWidth.err = i.err := by unfold guardWidth; split <;> rfl
@[simp] theorem Integrator.guardWidth_errPrev : i.guardWidth.errPrev = i.errPrev := by unfold guardWidth; split <;> rfl
@[simp] theorem Integrator.guardWidth_disp : i.guardWidth.disp = i.disp := by unfold guardWidth; split <;> rfl

/-- Re-basing moves angle and path together. -/
@[simp] theorem Integrator.guardWidth_path_sub :
    i.guardWidth.path - i.guardWidth.angle = i.path - i.angle := by
  unfold guardWidth
  split
  · simp [rebase]
  · rfl

@[simp] theorem Integrator.step_err : (i.step a g).err = marginClamp a.margin (i.rawError a g) :=
  Integrator.guardWidth_err _
@[simp] theorem Integrator.step_errPrev : (i.step a g).errPrev = marginClamp a.margin (i.rawError a g) :=
  Integrator.guardWidth_errPrev _
@[simp] theorem Integrator.step_disp :
    (i.step a g).disp = displacement (marginClamp a.margin (i.rawError a g)) a.gain :=
  Integrator.guardWidth_disp _
@[simp] theorem Integrator.step_path_sub :
    (i.step a g).path - (i.step a g).angle = marginClamp a.margin (i.rawError a g) := by
  refine (Integrator.guardWidth_path_sub _).trans ?_
  simp

theorem Integrator.step_angle_of_lt (h : (i.angle + g).natAbs < 2 ^ 46) : (i.step a g).angle = i.angle + g := by
  unfold step guardWidth
  rw [if_neg (Nat.not_le.mpr h)]

theorem Integrator.step_angle_of_ge (h : 2 ^ 46 ≤ (i.angle + g).natAbs) : (i.step a g).angle = 0 := by
  unfold step guardWidth
  rw [if_pos h]
  rfl

/-- Rounding the product of error and gain is adding half of 2^24 to its magnitude. -/
theorem displacement_eq (c : Int) (gain : Nat) : displacement c gain =
    saturate16 ((c * (gain : Int)).sign * (((c.natAbs * gain + 2 ^ 23) / 2 ^ 24 : Nat) : Int)) := by
  have hhalf : (2 * (c.natAbs * gain) + 2 ^ 24) / (2 * 2 ^ 24) = (c.natAbs * gain + 2 ^ 23) / 2 ^ 24 := by omega
  rw [displacement, roundHalfAway, Int.natAbs_mul, Int.natAbs_natCast, hhalf]

/-- Settles O20: the step's fields, each by its law. -/
theorem integratorStep : Obligations.IntegratorStep := by
  intro a i g
  extract_lets angle e l j
  have hraw : i.rawError a g = e := rfl
  have herr : j.err = clampInt (-l) l e := i.step_err a g
  have hdisp : j.disp = displacement j.err a.gain := by
    rw [show j.err = _ from i.step_err a g]
    exact i.step_disp a g
  have hpath : j.path - j.angle = j.err := (i.step_path_sub a g).trans (i.step_err a g).symm
  refine ⟨fun h => ?_, fun h => ?_, fun h1 h2 => ?_, (i.step_errPrev a g).trans (i.step_err a g).symm, hpath,
    fun h => i.step_angle_of_lt a g h, fun h => ?_, ?_, ?_⟩
  · rw [herr, clampInt_of_gt h (by omega)]
  · rw [herr, clampInt_of_lt h]
  · rw [herr, clampInt_of_mem h1 h2]
  · have h0 : j.angle = 0 := i.step_angle_of_ge a g h
    rw [h0, sub_zero] at hpath
    exact ⟨h0, hpath⟩
  · rw [hdisp, displacement_eq]
    exact ⟨clampInt_of_lt, fun h => clampInt_of_gt h (by decide), clampInt_of_mem⟩
  · rw [Integrator.stepMark, marginMark_iff, hraw]
    omega

/-! ### Bounds of error and displacement (R37, R38, R42) -/

/-- The magnitude of a displacement grows with that of its error. -/
theorem displacement_natAbs_le {c : Int} {l gain : Nat} (h : c.natAbs ≤ l) :
    ((displacement c gain).natAbs : Int) ≤ roundHalfAway ((l : Int) * gain) (2 ^ 24) := by
  have hsat (v : Int) : (saturate16 v).natAbs ≤ v.natAbs := by
    rw [saturate16, clampInt_eq_max_min v (by decide)]
    omega
  have hmono : (roundHalfAway (c * gain) (2 ^ 24)).natAbs ≤ (2 * (l * gain) + 2 ^ 24) / (2 * 2 ^ 24) := by
    rw [natAbs_roundHalfAway, Int.natAbs_mul, Int.natAbs_natCast]
    have := Nat.mul_le_mul_right gain h
    exact Nat.div_le_div_right (by omega)
  rw [← Nat.cast_mul, roundHalfAway_natCast]
  exact Int.ofNat_le.mpr ((hsat _).trans hmono)

theorem displacement_mem (c : Int) (gain : Nat) : -32768 ≤ displacement c gain ∧ displacement c gain ≤ 32767 := by
  rw [displacement, saturate16, clampInt_eq_max_min _ (by decide)]
  omega

@[simp] theorem Integrator.lineUp_err : (i.lineUp a).err = marginClamp a.margin i.err := by
  unfold lineUp
  extract_lets c
  split
  · rfl
  · rename_i h
    simp only [marginMark, Bool.or_eq_true, decide_eq_true_eq, not_or, not_not] at h
    exact h.2.symm

@[simp] theorem Integrator.lineUp_disp : (i.lineUp a).disp = displacement (marginClamp a.margin i.err) a.gain := by
  unfold lineUp
  extract_lets c
  split <;> rfl

/-- An error within the margin stays, and with it the path, unless the margin is 0. -/
theorem Integrator.lineUp_within (h : i.err.natAbs ≤ a.margin) :
    (i.lineUp a).err = i.err ∧ (i.lineUp a).path = if a.margin = 0 then i.angle else i.path := by
  have hc : marginClamp a.margin i.err = i.err := clampInt_of_mem (by omega) (by omega)
  refine ⟨by rw [i.lineUp_err a, hc], ?_⟩
  unfold lineUp
  rw [hc]
  by_cases hm : a.margin = 0
  · have he : i.err = 0 := by omega
    simp [marginMark, hm, he]
  · have hmark : marginMark a.margin i.err = false := by
      rw [← Bool.not_eq_true, marginMark_iff]
      omega
    simp [hmark, hm]

/-- Settles O21: in either case the error is the clamp of some value, and the displacement that of the error. -/
theorem displacementBound : Obligations.DisplacementBound := by
  intro a i j h
  refine ⟨fun hj he => hj ▸ i.lineUp_within a he, ?_⟩
  obtain ⟨c, herr, hdisp⟩ : ∃ c, j.err = marginClamp a.margin c ∧ j.disp = displacement (marginClamp a.margin c) a.gain := by
    rcases h with ⟨g, rfl⟩ | rfl
    · exact ⟨_, i.step_err a g, i.step_disp a g⟩
    · exact ⟨_, i.lineUp_err a, i.lineUp_disp a⟩
  rw [herr, hdisp]
  exact ⟨marginClamp_natAbs_le _ _, displacement_natAbs_le (marginClamp_natAbs_le _ _), displacement_mem _ _⟩

/-! ### A common shift of angle and path (R41) -/

/-- Two axes that differ only by a common shift of angle and path. -/
structure Integrator.Shifted (i j : Integrator) : Prop where
  err : j.err = i.err
  errPrev : j.errPrev = i.errPrev
  disp : j.disp = i.disp
  path : j.path - j.angle = i.path - i.angle

variable {a i j}

/-- The error of a step is formed from the path less the angle. -/
theorem Integrator.Shifted.rawError (h : i.Shifted j) : j.rawError a g = i.rawError a g := by
  have hp := h.path
  have hd : j.angle + g - j.path = i.angle + g - i.path := by omega
  unfold Integrator.rawError
  rw [hd, h.errPrev]
  omega

theorem Integrator.Shifted.step (h : i.Shifted j) : (i.step a g).Shifted (j.step a g) := by
  constructor <;> simp only [Integrator.step_err, Integrator.step_errPrev, Integrator.step_disp,
    Integrator.step_path_sub, h.rawError]

theorem Integrator.Shifted.run (rates : List Int) (h : i.Shifted j) :
    (rates.foldl (fun y r => y.step a r) i).Shifted (rates.foldl (fun y r => y.step a r) j) := by
  induction rates generalizing i j with
  | nil => exact h
  | cons r rates ih => exact ih (h.step r)

/-- Settles O22: a step keeps two axes a common shift apart, whichever of them it re-bases. -/
theorem commonShiftUnseen : Obligations.CommonShiftUnseen := by
  intro a i k g rates
  have h : i.Shifted { i with angle := i.angle + k, path := i.path + k } := ⟨rfl, rfl, rfl, by simp⟩
  have hrun := h.run (a := a) rates
  refine ⟨hrun.err, hrun.errPrev, hrun.disp, ?_, hrun.path, fun hk => ?_, rfl, rfl, rfl, rfl, rfl⟩
  · exact congrArg (marginMark a.margin) (hrun.rawError g)
  · subst hk
    simp [Integrator.rebase, sub_eq_add_neg]

end Sys2Proof.Machine
end


section
/-! SUPPORT. The capture channels and the IMU port: edges and their judgement, deadlines, band expiry, the init sequence,
the end of a stale transaction. -/
namespace Sys2Proof.Machine

variable {s : State}

/-! ### What the arbiter does to notices (R167) -/

/-- The arbiter brings no notice. -/
theorem arbitrate_notices_subset {e : NoticeEntry} (h : e ∈ s.arbitrate.link.notices) : e ∈ s.link.notices := by
  rcases arbitrate_cases s with k | ⟨_, _, _, k⟩ | ⟨_, _, _, _, _, _, _, k⟩ | ⟨e', es, _, hn, k⟩ <;> rw [k] at h
  · exact h
  · exact h
  · exact h
  · rw [hn]
    exact List.mem_cons_of_mem e' h

/-- A notice that waits goes on waiting or is the packet being sent. -/
theorem arbitrate_notice_kept {e : NoticeEntry} (h : e ∈ s.link.notices) :
    e ∈ s.arbitrate.link.notices ∨ s.arbitrate.link.sending = some (noticePacket e) := by
  rcases arbitrate_cases s with k | ⟨_, _, _, k⟩ | ⟨_, _, _, _, _, _, _, k⟩ | ⟨e', es, _, hn, k⟩ <;> rw [k]
  · exact .inl h
  · exact .inl h
  · exact .inl h
  · rw [hn] at h
    rcases List.mem_cons.mp h with rfl | h
    · exact .inr rfl
    · exact .inl h

/-- A notice raised stands in the set, with its own argument. -/
theorem mem_noticeAdd (ns : List NoticeEntry) (n : Notice) : ∃ e ∈ noticeAdd ns n, e.notice = n := by
  unfold noticeAdd
  split
  · rename_i h
    obtain ⟨e, he, hk⟩ := List.any_eq_true.mp h
    refine ⟨_, List.mem_map_of_mem he, ?_⟩
    rw [if_pos (of_decide_eq_true hk)]
  · exact ⟨⟨1, n⟩, by simp, rfl⟩

/-- The arbiter's effect on the frame builder is on the send list alone. -/
theorem arbitrate_builder : s.arbitrate.frame = { s.frame with sendList := s.arbitrate.frame.sendList } := by
  obtain ⟨_, _, _, _, h⟩ := arbitrate_frame s
  rw [h]

/-! ### Taking and judging an edge (R2, R6) -/

/-- Whether the interval of an edge just taken is valid and in tolerance, said of the two clock values. -/
theorem Capture.take_steady (c : Capture) (now : Time) (period : Nat) : (c.take now).steady period = true ↔
    (now - c.last).toNat < 2 ^ 39 ∧ 3 * period ≤ 4 * (now - c.last).toNat ∧ 4 * (now - c.last).toNat ≤ 5 * period := by
  show (match validDiff now c.last with | some d => inTolerance d period | none => false) = true ↔ _
  unfold validDiff
  generalize (now - c.last).toNat = d
  by_cases h : d < 2 ^ 39
  · rw [if_pos h]
    simp only [inTolerance, h, Bool.and_eq_true, decide_eq_true_eq, true_and]
  · rw [if_neg h]
    simp only [Bool.false_eq_true, h, false_and]

/-- An edge taken and judged: in LOST, once an edge of the session has been seen, a steady interval counts towards the
lock and any other clears the run. -/
theorem Capture.take_judge (c : Capture) (now : Time) (period : Nat) (judged steady locks : Prop) [Decidable judged]
    [Decidable steady] [Decidable locks] [Decidable (steady ∧ c.lockRun < 2)]
    (hj : judged ↔ c.edgeSeen = true ∧ c.cadence = .lost)
    (hs : steady ↔ (now - c.last).toNat < 2 ^ 39 ∧ 3 * period ≤ 4 * (now - c.last).toNat ∧
      4 * (now - c.last).toNat ≤ 5 * period)
    (hl : locks ↔ judged ∧ steady ∧ 2 ≤ c.lockRun) :
    (c.take now).judge period = { c with
      prev := c.last, last := now, count := c.count + 1, edgeSeen := true
      cadence := if locks then .locked else c.cadence
      lockRun := if judged then (if steady ∧ c.lockRun < 2 then c.lockRun + 1 else 0) else c.lockRun } := by
  have hst := (c.take_steady now period).trans hs.symm
  have hseen : (c.take now).edgeSeen = c.edgeSeen := rfl
  have hcad : (c.take now).cadence = c.cadence := rfl
  have hrun : (c.take now).lockRun = c.lockRun := rfl
  unfold Capture.judge
  rw [hseen, hcad, hrun]
  cases he : c.edgeSeen with
  | false =>
    have nj : ¬ judged := by simp [hj, he]
    simp [hl, nj, Capture.take]
  | true =>
    cases hc : c.cadence with
    | locked =>
      have nj : ¬ judged := by simp [hj, hc]
      simp [hl, nj, Capture.take, he, hc]
    | lost =>
      have jj : judged := hj.mpr ⟨he, hc⟩
      simp only [if_true]
      by_cases hsy : steady
      · rw [if_pos (hst.mpr hsy)]
        by_cases h2 : 2 ≤ c.lockRun
        · have h3 : 3 ≤ c.lockRun + 1 := by omega
          simp [hl, jj, hsy, h2, h3, Nat.not_lt.mpr h2, Capture.take, he]
        · have h3 : ¬ 3 ≤ c.lockRun + 1 := by omega
          simp [hl, jj, hsy, h2, h3, Nat.not_le.mp h2, Capture.take, he, hc]
      · rw [if_neg (fun h => hsy (hst.mp h))]
        simp [hl, jj, hsy, Capture.take, he, hc]

/-! ### DR_EDGE (R2, R6, R18, R19) -/

/-- The DR channel after an edge. -/
def State.drTaken (s : State) : Capture :=
  if s.imu.active then ((s.capture.dr.take s.now).judge s.imu.cfg.period).rearm s.imu.cfg.period
  else s.capture.dr.take s.now

/-- The notice set after a DR edge: CADENCE raised where the cadence changed. -/
def State.drNotices (s : State) : List NoticeEntry :=
  if s.drTaken.cadence = s.capture.dr.cadence then s.link.notices
  else noticeAdd s.link.notices (.cadence .dr s.drTaken.cadence s.now)

/-- DR_EDGE with the part awake: the channel, the port and the notices, and then the arbiter. -/
theorem State.onDrEdge_of_awake (h : s.link.parked = false) : s.onDrEdge = State.arbitrate { s with
    capture := { s.capture with dr := s.drTaken }, imu := s.imu.drEdge s.now
    link := { s.link with notices := s.drNotices } } := by
  unfold State.onDrEdge State.drNotices State.drTaken
  rw [if_neg (by simp [h])]
  cases ha : s.imu.active with
  | false =>
    simp only [Bool.false_eq_true, if_false]
    rw [if_pos (show (s.capture.dr.take s.now).cadence = s.capture.dr.cadence from rfl)]
    rfl
  | true =>
    simp only [if_true]
    unfold State.judgeDr State.judged State.raiseIf
    by_cases hc : (((s.capture.dr.take s.now).judge s.imu.cfg.period).rearm s.imu.cfg.period).cadence =
      s.capture.dr.cadence
    · rw [if_pos hc, if_neg (mt of_decide_eq_true (not_not.mpr (by exact hc)))]
      rfl
    · rw [if_neg hc, if_pos (decide_eq_true (by exact hc))]
      rfl

theorem State.drTaken_of_stopped (h : s.imu.active = false) : s.drTaken = { s.capture.dr with
    prev := s.capture.dr.last, last := s.now, count := s.capture.dr.count + 1 } := by
  rw [State.drTaken, if_neg (by simp [h])]
  rfl

/-- With motion active the edge is judged, and the loss deadline set again from it. -/
theorem State.drTaken_of_active (h : s.imu.active = true) : s.drTaken =
    let c := s.capture.dr
    let d := (s.now - c.last).toNat
    let judged := c.edgeSeen = true ∧ c.cadence = .lost
    let steady := d < 2 ^ 39 ∧ 3 * s.imu.cfg.period ≤ 4 * d ∧ 4 * d ≤ 5 * s.imu.cfg.period
    { c with
      prev := c.last, last := s.now, count := c.count + 1, edgeSeen := true
      cadence := if judged ∧ steady ∧ 2 ≤ c.lockRun then .locked else c.cadence
      lockRun := if judged then (if steady ∧ c.lockRun < 2 then c.lockRun + 1 else 0) else c.lockRun
      deadline := some (later s.now (4 * s.imu.cfg.period)) } := by
  rw [State.drTaken, if_pos h, Capture.take_judge _ _ _ _ _ _ Iff.rfl Iff.rfl Iff.rfl]
  rfl

/-- The stamp of an edge, whether it is judged or not. -/
theorem State.drTaken_stamp (s : State) : s.drTaken.prev = s.capture.dr.last ∧ s.drTaken.last = s.now ∧
    s.drTaken.count = s.capture.dr.count + 1 := by
  cases h : s.imu.active with
  | false => rw [State.drTaken_of_stopped h]; exact ⟨rfl, rfl, rfl⟩
  | true => rw [State.drTaken_of_active h]; exact ⟨rfl, rfl, rfl⟩

/-- Settles O9: the arbiter at the end touches only what waits to be sent, so the record, the monitor and the port are
read off the state before it. -/
theorem drEdge : Obligations.DrEdge := by
  intro s
  refine ⟨s.onDrEdge, exec_eq .drEdge s, fun h => by rw [State.onDrEdge, if_pos h], fun h => ?_⟩
  rw [State.onDrEdge_of_awake h]
  simp only [arbitrate_capture, arbitrate_imu, arbitrate_motion, arbitrate_buffer, arbitrate_clip, arbitrate_card,
    arbitrate_charge, arbitrate_budget, arbitrate_pins, arbitrate_parked, arbitrate_parser, arbitrate_overruns,
    arbitrate_freeCount, arbitrate_pending]
  obtain ⟨hprev, hlast, hcount⟩ := s.drTaken_stamp
  refine ⟨trivial, hprev, hlast, hcount, rfl, fun ha => State.drTaken_of_stopped ha, fun ha => ?_, fun hc e he => ?_,
    trivial, trivial, trivial, trivial, trivial, trivial, trivial, arbitrate_builder, h, trivial, trivial, trivial,
    trivial⟩
  · have hd := State.drTaken_of_active ha
    refine ⟨by rw [hd], by rw [hd], fun hs => ?_, fun hseen hlost => ?_⟩
    · have nj : ¬ (s.capture.dr.edgeSeen = true ∧ s.capture.dr.cadence = .lost) := by
        rintro ⟨h1, h2⟩
        simp [h1, h2] at hs
      rw [hd]
      simp only [nj, false_and, if_false]
      exact ⟨trivial, trivial⟩
    · simp only [hseen, hlost, true_and, if_true] at hd
      generalize (s.now - s.capture.dr.last).toNat = d at hd ⊢
      by_cases hsteady : d < 2 ^ 39 ∧ 3 * s.imu.cfg.period ≤ 4 * d ∧ 4 * d ≤ 5 * s.imu.cfg.period
      · rw [if_pos hsteady]
        simp only [show _ ∧ _ ∧ _ from hsteady, true_and] at hd
        refine ⟨fun h2 => ?_, fun h2 => ?_⟩
        · rw [hd]
          simp [h2, Nat.not_le.mpr h2]
        · have hlock : s.drTaken.cadence = .locked := by rw [hd]; simp [h2]
          refine ⟨hlock, by rw [hd]; simp [Nat.not_lt.mpr h2], ?_⟩
          have hn : s.drNotices = noticeAdd s.link.notices (.cadence .dr .locked s.now) := by
            rw [State.drNotices, if_neg (by simp [hlock, hlost]), hlock]
          obtain ⟨e, he, hen⟩ := mem_noticeAdd s.link.notices (.cadence .dr .locked s.now)
          rcases arbitrate_notice_kept (s := { s with
            capture := { s.capture with dr := s.drTaken }, imu := s.imu.drEdge s.now
            link := { s.link with notices := s.drNotices } }) (e := e) (by exact hn ▸ he) with k | k
          · exact .inl ⟨e, k, hen⟩
          · exact .inr ⟨e.count, by rw [k, ← hen]⟩
      · rw [if_neg hsteady]
        simp only [hsteady, false_and, if_false] at hd
        rw [hd]
        exact ⟨rfl, rfl⟩
  · have := arbitrate_notices_subset he
    rwa [show _ = s.drNotices from rfl, State.drNotices, if_pos hc] at this

/-! ### Deadlines and bands (R5, R8, R11) -/

/-- Settles O11: the monitor's change is told exactly from LOCKED. -/
theorem lossDeadlineExpiry : Obligations.LossDeadlineExpiry := by
  intro s ch d hd hr
  rw [exec_eq]
  show Host.Outcome.next (s.onLossDeadlineExpiry ch) = _
  unfold State.onLossDeadlineExpiry State.judged State.raiseIf
  simp only [hd, hr, if_true]
  cases hc : (s.capture.get ch).cadence with
  | locked => rfl
  | lost => rfl

/-- BAND_EXPIRY of a due head entry. -/
theorem State.onBandExpiry_of_due {e : BandDue} {es : List BandDue} {r : FrameRecord} (hb : s.capture.bands = e :: es)
    (hr : s.frame.record = some r) (hd : atOrAfter s.now e.due = true) : s.onBandExpiry = State.conclude
      (let u : State := { s with
          capture := { s.capture with bands := es }
          frame := { s.frame with record := some (r.latch s.motion.axes e.band) } }
       if es.isEmpty then u.finishFrame else u) := by
  have hreached : s.bandReached = true := by
    unfold State.bandReached
    rw [hb]
    exact hd
  rw [State.onBandExpiry, if_pos hreached, State.expireBand, hb]
  simp only [State.latch, hr, Option.map_some]

/-- Settles O12: the last band's latch finishes the record, which the send list takes or refuses. -/
theorem bandExpiryLatches : Obligations.BandExpiryLatches := by
  intro s e es r hb hr hd
  extract_lets latched ends
  have hlatch : r.latch s.motion.axes e.band = latched := rfl
  have hend : exec .bandExpiry s = .next _ := (exec_eq _ s).trans (congrArg _ (State.onBandExpiry_of_due hb hr hd))
  rw [hlatch] at hend
  refine ⟨fun hes => ?_, fun hes => ?_⟩
  · rw [if_neg (by simpa using hes)] at hend
    exact hend
  · subst hes
    simp only [List.isEmpty_nil, if_true, State.finishFrame, State.offerRecord] at hend
    refine ⟨fun h => ?_, fun h => ?_⟩
    · rw [if_pos h] at hend
      exact hend
    · rw [if_neg (Nat.not_lt.mpr h)] at hend
      exact hend

/-! ### The init sequence (R15, R16) -/

/-- A settle wait that lies ahead: at most half a turn of the clock. -/
theorem atOrAfter_later {us : Nat} (t : Time) (h1 : 1 ≤ us) (h2 : us ≤ 2 ^ 39) : atOrAfter t (later t us) = false :=
  ((clockComparison t us).2 h1 h2).1

/-- Settles O13: the next pair, the settle wait, or with no settle time the port IDLE at once. -/
theorem initSequence : Obligations.InitSequence := by
  refine ⟨fun s i a v ht hst => ?_, fun s d hi ht hd => ⟨fun h => ?_, fun h => ?_⟩⟩
  · have hw : s.onInitWriteDone = (s.nextPair i).arbitrate := by
      simp only [State.onInitWriteDone, ht, hst, Bool.false_eq_true, if_false]
    refine ⟨fun x y hp => ?_, fun hp h0 h1 => ?_, fun hp h0 => ?_⟩ <;> rw [exec_eq] <;>
      refine congrArg _ (hw.trans (congrArg State.arbitrate ?_)) <;> simp only [State.nextPair, hp]
    · rfl
    · rw [State.settleUntil, if_neg (by simp [atOrAfter_later s.now (us := 1000 * s.imu.cfg.settleMs) (by omega) (by omega)])]
    · rw [State.settleUntil, h0, if_pos (by simp [later])]
      rfl
  · have hr : s.settleReached = true := by simp [State.settleReached, hi, ht, hd, h]
    rw [exec_eq]
    exact congrArg _ (if_pos hr)
  · have hr : s.settleReached = false := by simp [State.settleReached, hi, ht, hd, h]
    rw [exec_eq]
    exact congrArg _ (if_neg (by simp [hr]))

/-! ### The end of a stale transaction (R16, R17, R20) -/

/-- Whichever transaction was running at the MOTION_STOP, its end is that of `endStale`. -/
theorem exec_of_stale (bytes : List Byte) (h : s.imu.stale = true) {t : State} (ht : s.endStale.arbitrate = t) :
    (∀ i a v, s.imu.txn = some (.write i a v) → exec .initWriteDone s = .next t) ∧
    (∀ a stamp, s.imu.txn = some (.read a stamp) → exec (.readComplete bytes) s = .next t) := by
  refine ⟨fun i a v k => ?_, fun a stamp k => ?_⟩ <;> rw [exec_eq] <;> refine congrArg _ (Eq.trans ?_ ht)
  · show s.onInitWriteDone = _
    simp only [State.onInitWriteDone, k, h, if_true]
  · show s.onReadComplete bytes = _
    simp only [State.onReadComplete, k, h, if_true]

/-- Settles O14: the port STOPPED, or INIT entered for the session begun since. -/
theorem stopAtTransactionEnd : Obligations.StopAtTransactionEnd := by
  intro s bytes h
  extract_lets ends stopped
  have hend {t : State} (ht : s.endStale = t) : ends t.arbitrate := exec_of_stale bytes h (congrArg State.arbitrate ht)
  refine ⟨fun ha => hend ?_, fun ha => ⟨fun a v rest hp => hend ?_, fun hp due hdue => ⟨fun hr => hend ?_, fun hr =>
    hend ?_⟩⟩⟩
  · exact if_neg (ne_true_of_eq_false ha)
  all_goals
    refine (if_pos (show _ = true from ha)).trans ?_
    simp only [State.answerWaiting, State.startInit, hp]
  · rfl
  all_goals
    simp only [hdue, Option.getD_some, State.settleUntil]
  · rw [if_neg (ne_true_of_eq_false (by exact hr)), ← hdue]
    rfl
  · rw [if_pos (by exact hr)]
    rfl

end Sys2Proof.Machine
end


section
/-! SUPPORT. The chunk buffer and the receive side: the page memory, motion chunks, MEDIA headers and payloads, the
latency deadline, malformed packets. -/
namespace Sys2Proof.Machine

variable {s : State}

/-! ### The page memory (R60, R61) -/

/-- The page of a stream byte of a chunk. -/
theorem pageAddress_eq {pages : List Nat} {off : Nat} (h : off < 4096 * pages.length) :
    ∃ hi : off / 4096 < pages.length, pageAddress pages off = pages[off / 4096] * 4096 + off % 4096 := by
  have hi : off / 4096 < pages.length := by omega
  exact ⟨hi, by rw [pageAddress, List.getD_eq_getElem _ _ hi]⟩

/-- Different stream bytes of a chunk stand at different addresses, as its pages are different. -/
theorem pageAddress_inj {pages : List Nat} (hn : pages.Nodup) {m n : Nat} (hm : m < 4096 * pages.length)
    (hk : n < 4096 * pages.length) (h : pageAddress pages m = pageAddress pages n) : m = n := by
  obtain ⟨hi, ei⟩ := pageAddress_eq hm
  obtain ⟨hj, ej⟩ := pageAddress_eq hk
  have hpage : pages[m / 4096] = pages[n / 4096] := by omega
  have := (hn.getElem_inj_iff (hi := hi) (hj := hj)).mp hpage
  omega

/-- Stored bytes read back in order: the later stores of the same chunk go to other addresses. -/
theorem ramRead_ramStore {pages : List Nat} (hn : pages.Nodup) {off : Nat} {bytes : List Byte} {ram : List Host.Cell}
    (hw : ramWf ram = true) (hfit : off + bytes.length ≤ 4096 * pages.length) {j : Nat} {b : Byte}
    (hj : bytes[j]? = some b) : ramRead (ramStore pages off bytes ram) (pageAddress pages (off + j)) = b := by
  induction bytes generalizing off ram j with
  | nil => simp at hj
  | cons x xs ih =>
    rw [List.length_cons] at hfit
    rw [ramStore]
    have hw' := ramWrite_wf ram (pageAddress pages off) x hw
    cases j with
    | zero =>
      obtain rfl : x = b := by simpa using hj
      rw [ramRead_ramStore_other _ _ _ _ _ hw', Nat.add_zero, ramRead_ramWrite_same _ _ _ hw]
      intro i hi he
      have := pageAddress_inj hn (by omega) (by omega) he
      omega
    | succ j =>
      rw [show off + (j + 1) = off + 1 + j by omega]
      exact ih hw' (by omega) (by simpa using hj)

/-- Settles O27. -/
theorem payloadReadsBack : Obligations.PayloadReadsBack := by
  intro ram pages off bytes hw hn hfit
  refine ⟨ramStore_wf _ _ _ _ hw, fun j b hj => ramRead_ramStore hn hw hfit hj,
    fun a ha => ramRead_ramStore_other _ _ _ _ _ hw fun i hi => (ha i hi).symm, fun i o g ho hg => ?_⟩
  have hi : (4096 * i + o) / 4096 = i := by omega
  rw [pageAddress, hi, List.getD_eq_getElem?_getD, hg, Option.getD_some]
  omega

/-! ### Motion chunks (R53, R54) -/

/-- An open accumulator that holds its number of records with this one hands them over. -/
theorem State.accumulate_full {r : FrameRecord} (ho : s.frame.accOpen = true)
    (hn : s.clip.cfg.perChunk ≤ s.frame.acc.length + 1) :
    s.accumulate r = State.enqueueMotion { s with frame := { s.frame with acc := [] } } (s.frame.acc ++ [r]) := by
  rw [State.accumulate, if_pos ho]
  exact if_pos (by simpa using hn)

/-- A field of the first record, or 0 of none, by either way of writing it. -/
theorem head?_map_getD {α β : Type} (f : α → β) (l : List α) (d : β) : (l.head?.map f).getD d = (l.map f).headD d := by
  cases l <;> rfl

/-- A motion chunk that finds a descriptor and a page: READY at the tail, its records' bytes after its header. -/
theorem State.enqueueMotion_stored {recs : List FrameRecord} (hq : s.buffer.queue.length < 256)
    (hf : s.buffer.free ≠ []) : s.enqueueMotion recs =
    let payload := recs.flatMap FrameRecord.bytes
    let need := (16 + payload.length + 4095) / 4096
    let pages := s.buffer.free.take need
    let stamp := (recs.map FrameRecord.stamp).headD 0
    { s with buffer := { s.buffer with
        ram := ramStore pages 16 payload
          (ramStore pages 0 (chunkHeader .motion false payload.length s.buffer.nextSeq stamp) s.buffer.ram)
        free := s.buffer.free.drop need
        queue := s.buffer.queue ++ [{ seq := s.buffer.nextSeq, kind := .motion, key := false, hostTime := stamp,
                                      arrival := some s.now, length := payload.length, pages := pages, acked := 0,
                                      state := .ready, place := none }]
        nextSeq := s.buffer.nextSeq + 1, accepted := s.buffer.accepted + 1 } } := by
  have h1 : 0 < s.buffer.freeDescriptors := Nat.sub_pos_of_lt hq
  have h2 : 0 < s.buffer.free.length := List.length_pos_of_ne_nil hf
  unfold State.enqueueMotion
  simp only [h1, h2, decide_true]
  rw [head?_map_getD]
  rfl

/-- Settles O24: a closed accumulator, one not yet full, and the hand-over by what is free. -/
theorem motionChunkHandedOver : Obligations.MotionChunkHandedOver := by
  intro s r
  refine ⟨fun h => if_neg (by simp [h]), fun h hn => ?_, fun h hn => ?_⟩
  · rw [State.accumulate, if_pos h]
    exact if_neg (by simp; omega)
  · intro recs payload need pages stamp emptied drop
    have hpos (hf : s.buffer.free ≠ []) : 0 < s.buffer.free.length := List.length_pos_of_ne_nil hf
    rw [State.accumulate_full h hn]
    have drops (reason : DropReason) (n : Nat) : State.dropMotion recs reason
        { s with frame := emptied, freeCount := s.freeCount + n } = drop n reason := by
      unfold State.dropMotion firstNumber
      rw [head?_map_getD]
    refine ⟨fun hq hf => State.enqueueMotion_stored hq hf, fun hq hf => ?_, fun hq hf => ?_, fun hq hf => ?_⟩ <;>
      simp only [State.enqueueMotion, ChunkBuffer.freeDescriptors]
    · simp only [show ¬ 0 < 256 - s.buffer.queue.length by omega, hpos hf, decide_true, decide_false]
      exact drops .noDescriptor 0
    · simp only [show 0 < 256 - s.buffer.queue.length by omega, hf, List.length_nil, lt_irrefl, decide_true,
        decide_false]
      exact drops .noPage 0
    · simp only [show ¬ 0 < 256 - s.buffer.queue.length by omega, hf, List.length_nil, lt_irrefl, decide_false,
        State.chooseFree]
      split
      · exact .inl (drops .noDescriptor 1)
      · exact .inr (drops .noPage 1)

/-! ### MEDIA headers (R65, R66, R67) -/

/-- A header of the MEDIA row: of kind 1 and no more than 65520 bytes. -/
theorem mediaRow_iff (h : Header) :
    (!h.isMalformed && decide (h.kindCode = 1)) = true ↔ h.b0.toNat % 16 = 1 ∧ h.len.toNat ≤ 65520 := by
  simp only [Header.isMalformed, Bool.not_or, Bool.not_not, Bool.and_eq_true, decide_eq_true_eq, Bool.not_eq_true',
    decide_eq_false_iff_not, not_lt]
  unfold Header.kindCode
  omega

theorem State.listening_iff (s : State) :
    s.listening = true ↔ s.pins.reset = false ∧ ∀ n, s.link.parser ≠ .storing n := by
  unfold State.listening Parser.isStoring
  cases s.link.parser <;> simp

/-- MEDIA_HEADER is judged where the parser takes packets and the header is of its row. -/
theorem State.onMediaHeader_eq (h : Header) (s : State) : s.onMediaHeader h =
    if s.listening = true ∧ h.b0.toNat % 16 = 1 ∧ h.len.toNat ≤ 65520 then (s.judgeMedia h).conclude else s := by
  unfold State.onMediaHeader
  rw [Bool.and_assoc]
  refine if_congr ?_ rfl rfl
  rw [Bool.and_eq_true, mediaRow_iff h]

/-- The fields of a MEDIA header, as the obligation writes them. -/
theorem mediaKind_eq (h : Header) : mediaKind h =
    if h.b0.toNat / 16 % 8 = 1 then .video else if h.b0.toNat / 16 % 8 = 2 then .audio else .data := by
  unfold mediaKind
  split <;> simp_all

theorem mediaKey_eq (h : Header) : mediaKey h = (decide (128 ≤ h.b0.toNat) && decide (h.b0.toNat / 16 % 8 = 1)) := by
  unfold mediaKey
  rw [mediaKind_eq]
  congr 1
  split_ifs <;> simp [*]

theorem ChunkBuffer.hasRoom_iff (b : ChunkBuffer) (n : Nat) :
    b.hasRoom n = true ↔ b.queue.length < 256 ∧ pagesFor n + 2 ≤ b.free.length := by
  simp only [ChunkBuffer.hasRoom, Bool.and_eq_true, decide_eq_true_eq]
  unfold ChunkBuffer.freeDescriptors
  omega

/-- Settles O25: the outcome of the judgement, by its cases. -/
theorem mediaHeaderJudged : Obligations.MediaHeaderJudged := by
  intro s h
  have heff : exec (.mediaHeader h) s = .next (if s.listening = true ∧ h.b0.toNat % 16 = 1 ∧ h.len.toNat ≤ 65520
      then (s.judgeMedia h).conclude else s) := (exec_eq _ s).trans (congrArg _ (s.onMediaHeader_eq h))
  refine ⟨fun hout => ?_, fun hr hp hk hl => ?_⟩
  · rw [heff, if_neg]
    rw [State.listening_iff]
    rintro ⟨⟨h1, h2⟩, h3, h4⟩
    rcases hout with k | ⟨n, k⟩ | k | k
    · simp [h1] at k
    · exact h2 n k
    · exact k h3
    · omega
  · have hexec : exec (.mediaHeader h) s = .next (s.judgeMedia h).conclude := by
      rw [exec_eq]
      exact congrArg _ ((s.onMediaHeader_eq h).trans (if_pos ⟨s.listening_iff.mpr ⟨hr, hp⟩, hk, hl⟩))
    intro need time refused recording
    have refuses {reason : DiscardReason} (h0 : h.len ≠ 0) (hreason : s.refusal h = some reason) : refused reason := by
      show exec _ s = _
      rw [hexec, State.judgeMedia, if_neg h0, hreason]
      rfl
    refine ⟨fun h0 => ?_, fun h0 => ⟨fun hpark => refuses h0 ?_, fun hpark => ⟨fun hc => refuses h0 ?_, fun hc =>
      refuses h0 ?_, fun hc hfull => refuses h0 ?_, fun hc hq hf => ?_⟩⟩⟩
    · rw [hexec, State.judgeMedia, if_pos h0]
      rfl
    · rw [State.refusal, if_pos hpark]
    · rcases hc with hc | hc <;> simp only [State.refusal, hpark, hc, Bool.false_eq_true, if_false]
    · simp only [State.refusal, hpark, hc, Bool.false_eq_true, if_false]
    · have hroom : ¬ s.buffer.hasRoom h.len.toNat = true := by
        rw [ChunkBuffer.hasRoom_iff]
        show ¬ (_ ∧ need + 2 ≤ _)
        omega
      rcases hc with hc | hc <;> simp only [State.refusal, hpark, hc, Bool.false_eq_true, if_false, hroom]
    · intro code kind key pages
      have hroom : s.buffer.hasRoom h.len.toNat = true := s.buffer.hasRoom_iff _ |>.mpr ⟨hq, hf⟩
      have hno : s.refusal h = none := by
        rcases hc with hc | hc <;> simp only [State.refusal, hpark, hc, Bool.false_eq_true, if_false, hroom, if_true]
      rw [hexec, State.judgeMedia, if_neg h0, hno]
      show Host.Outcome.next (s.acceptMedia h).conclude = _
      unfold State.acceptMedia ChunkBuffer.create
      rw [mediaKind_eq, mediaKey_eq]
      rfl

/-! ### MEDIA payloads (R66, R67, R71) -/

/-- The only RECEIVING chunk is the one a completed payload of its length belongs to. -/
theorem ChunkBuffer.receiving_eq_some {b : ChunkBuffer} {c : Chunk} (hc : c ∈ b.queue) (hs : c.state = .receiving)
    (hu : ∀ d ∈ b.queue, d.state = .receiving → d = c) : b.receiving c.length = some c := by
  unfold ChunkBuffer.receiving
  cases hf : b.queue.find? (fun d => decide (d.state = .receiving) && decide (d.length = c.length)) with
  | none =>
    have := List.find?_eq_none.mp hf c hc
    simp [hs] at this
  | some d =>
    have hd := List.find?_some hf
    simp only [Bool.and_eq_true, decide_eq_true_eq] at hd
    rw [hu d (List.mem_of_find?_eq_some hf) hd.1]

theorem ChunkBuffer.receiving_eq_none {b : ChunkBuffer} (n : Nat) (h : ∀ c ∈ b.queue, c.state ≠ .receiving) :
    b.receiving n = none := by
  unfold ChunkBuffer.receiving
  exact List.find?_eq_none.mpr fun c hc => by simp [h c hc]

/-- Settles O26: the parser decides whose payload it was, and the queue whether its chunk is still there. -/
theorem mediaPayloadComplete : Obligations.MediaPayloadComplete := by
  intro s payload hr
  have hexec : exec (.mediaPayloadComplete payload) s = .next (match s.link.parser with
      | .header => s
      | .dropping n => if n = payload.length then s.setParser .header else s
      | .storing n => if n = payload.length then State.payloadArrived payload (s.setParser .header) else s) :=
    (exec_eq _ s).trans (congrArg _ (if_neg (by simp [hr])))
  refine ⟨fun hp => ?_, fun hp => ?_, fun h1 h2 => ?_⟩
  · simp only [hp, if_true] at hexec
    refine ⟨fun c hc hs hl hu => ?_, fun hnone => ?_⟩
    · have hfind : (s.setParser .header).buffer.receiving payload.length = some c :=
        hl ▸ ChunkBuffer.receiving_eq_some hc hs hu
      have hmap : s.buffer.queue.map (Chunk.complete c.seq s.now) = s.buffer.queue.map
          (fun d => if d = c then { d with state := .ready, arrival := some s.now } else d) := by
        refine List.map_congr_left fun d hd => if_congr ⟨fun h => hu d hd h.2, ?_⟩ rfl rfl
        rintro rfl
        exact ⟨rfl, hs⟩
      rw [hexec, State.payloadArrived, hfind, ← hmap]
      rfl
    · rw [hexec, State.payloadArrived, show (s.setParser .header).buffer.receiving payload.length = none from
        ChunkBuffer.receiving_eq_none _ hnone]
      rfl
  · simp only [hp, if_true] at hexec
    exact hexec
  · rw [hexec]
    split
    · rfl
    · rename_i n hn
      rw [if_neg (by rintro rfl; exact h2 hn)]
    · rename_i n hn
      rw [if_neg (by rintro rfl; exact h1 hn)]

/-! ### The latency deadline and malformed packets (R74, R75, R158) -/

theorem hostKind_iff (h : Header) : hostKind h = true ↔ ¬ (h.b0.toNat % 16 = 0 ∨ 4 < h.b0.toNat % 16) := by
  simp only [hostKind, Bool.and_eq_true, decide_eq_true_eq]
  unfold Header.kindCode
  omega

theorem isMalformed_iff (h : Header) :
    h.isMalformed = true ↔ (h.b0.toNat % 16 = 0 ∨ 4 < h.b0.toNat % 16) ∨ 65520 < h.len.toNat := by
  simp only [Header.isMalformed, Bool.or_eq_true, Bool.not_eq_true', Bool.and_eq_false_iff, decide_eq_false_iff_not,
    decide_eq_true_eq]
  unfold Header.kindCode
  omega

/-- What of a malformed packet's payload is dropped. -/
theorem dropped_payloadBytes (h : Header) :
    dropped h.payloadBytes = if h.len = 0 then .header else .dropping (min h.len.toNat 65520) := by
  unfold dropped Header.payloadBytes
  refine if_congr ?_ rfl rfl
  rw [← BitVec.toNat_inj]
  have h0 : BitVec.toNat (0 : BitVec 16) = 0 := rfl
  omega

/-- Settles O28. -/
theorem latencyAndMalformed : Obligations.LatencyAndMalformed := by
  refine ⟨fun s d hd => ⟨fun h he => ?_, fun h => ?_⟩, fun s h => ?_⟩
  · rw [exec_eq]
    exact congrArg _ (if_pos (by simp [State.latencyReached, hd, h, he]))
  · rw [exec_eq]
    exact congrArg _ (if_neg (by simp [State.latencyReached, hd, h]))
  intro badKind reported
  have hexec : exec (.malformedPacket h) s =
      .next (if s.listening && h.isMalformed then (s.consumeMalformed h).arbitrate else s) := exec_eq _ s
  have hbad : hostKind h = false ↔ badKind := by rw [← Bool.not_eq_true, hostKind_iff h, not_not]
  have hgood : hostKind h = true ↔ ¬ badKind := hostKind_iff h
  refine ⟨fun hl => ?_, fun hout => ?_⟩
  · have reports (n : Nat) (reason : OverrunReason) (hm : badKind ∨ 65520 < h.len.toNat)
        (hrep : (s.setParser (dropped h.payloadBytes)).reportMalformed h = State.overrun h reason
          { s.setParser (dropped h.payloadBytes) with freeCount := s.freeCount + n }) : reported n reason := by
      show exec _ s = _
      rw [hexec, if_pos (by rw [hl, (isMalformed_iff h).mpr hm]; rfl), State.consumeMalformed, hrep,
        dropped_payloadBytes]
      rfl
    refine ⟨fun hb hlen => reports 0 .badKind (.inl hb) ?_, fun hb hlen => reports 0 .badLength (.inr hlen) ?_,
      fun hb hlen => ?_⟩
    · simp only [State.reportMalformed, hbad.mpr hb, hlen, decide_true]
      rfl
    · simp only [State.reportMalformed, hgood.mpr hb, Nat.not_le.mpr hlen, decide_false]
      rfl
    · refine Or.imp (fun k => reports 1 .badKind (.inl hb) k) (fun k => reports 1 .badLength (.inl hb) k) ?_
      simp only [State.reportMalformed, hbad.mpr hb, Nat.not_le.mpr hlen, decide_false, State.chooseFree]
      split
      · exact .inl rfl
      · exact .inr rfl
  · rw [hexec, if_neg]
    rw [Bool.and_eq_true, isMalformed_iff h]
    rintro ⟨h1, h2⟩
    rcases hout with k | ⟨k1, k2⟩
    · simp [h1] at k
    · exact h2.elim k1 (by omega)

end Sys2Proof.Machine
end


section
/-! SUPPORT. Power-on and host reset, whole; and the requests turned away. -/
namespace Sys2Proof.Machine

variable {s : State}

/-! ### Power-on -/

/-- The arbiter with no record and no request waiting: a notice may leave. -/
theorem State.arbitrate_of_notices (h1 : s.link.sending = none) (h2 : s.frame.sendList = [])
    (h3 : s.link.outstanding = []) : s.arbitrate = if s.pins.reset then s else s.sendNotice := by
  unfold State.arbitrate
  rw [h1, h2]
  refine if_congr (by simp) rfl ?_
  exact State.sendAnswer_waiting fun r rs h => by simp [h3] at h

/-- The state of a power-on before the card's part, and the arbiter's. -/
def State.poweredOn (s : State) : State :=
  { capture := .reset, imu := .reset, motion := .reset, frame := .reset, buffer := .reset, clip := .reset,
    card := { CardController.reset with present := s.pins.card }
    charge := .reset, budget := .reset, link := .reset, pins := s.pins, freeCount := s.freeCount, pending := s.pending }

theorem State.powerOn_eq (s : State) : s.powerOn =
    if s.pins.claim then State.raise { s.poweredOn with card := { s.poweredOn.card with state := .yielded } }
      (.cardTaken .absent 0)
    else if s.pins.card then s.poweredOn.beginInit .powerOn false
    else s.poweredOn := by
  simp only [State.powerOn, State.reset, State.poweredOn]

/-- Settles O6: YIELDED with CARD_TAKEN where CLAIM is asserted, INIT where a card is shown, ABSENT otherwise; only the
first leaves the arbiter anything to send. (The values of the buffer and the clip recorder play no part: they are
generalised so that nothing computes the 384 pages and 64 slots.) -/
theorem powerOnConditions : Obligations.PowerOnConditions := by
  intro s
  refine ⟨s.effect .powerOn, exec_eq _ s, ?_⟩
  have hquiet (u : State) (h : u.link = .reset) (hf : u.frame = .reset) : u.arbitrate = u := by
    rw [State.arbitrate_of_notices (by rw [h]; rfl) (by rw [hf]; rfl) (by rw [h]; rfl)]
    split
    · rfl
    · rw [State.sendNotice, h]
      rfl
  show _ ∧ _
  simp only [State.effect, State.onPowerOn, State.powerOn_eq]
  unfold State.poweredOn
  generalize ChunkBuffer.reset = buffer
  generalize ClipRecorder.reset = clip
  cases hc : s.pins.claim with
  | true =>
    simp only [if_true]
    rw [State.arbitrate_of_notices rfl rfl rfl]
    cases hr : s.pins.reset with
    | true =>
      rw [if_pos (by exact hr)]
      exact ⟨rfl, rfl, rfl, rfl, rfl, rfl, rfl, rfl, rfl, rfl, rfl, rfl, rfl, rfl, rfl, rfl, rfl, rfl, rfl, rfl,
        rfl, rfl, rfl, rfl, rfl, rfl, rfl, rfl, fun h => by simp at h, fun _ => ⟨rfl, rfl⟩⟩
    | false =>
      rw [if_neg (ne_true_of_eq_false (by exact hr))]
      exact ⟨rfl, rfl, rfl, rfl, rfl, rfl, rfl, rfl, rfl, rfl, rfl, rfl, rfl, rfl, rfl, rfl, rfl, rfl, rfl, rfl,
        rfl, rfl, rfl, rfl, rfl, rfl, rfl, rfl, fun h => by simp at h, fun _ => ⟨rfl, rfl⟩⟩
  | false =>
    simp only [Bool.false_eq_true, if_false]
    cases hp : s.pins.card with
    | true =>
      rw [if_pos rfl, hquiet _ rfl rfl]
      refine ⟨rfl, rfl, rfl, rfl, rfl, rfl, rfl, rfl, rfl, rfl, by simp only [false_and, if_false]; rfl, rfl, rfl, rfl, rfl,
        rfl, rfl, rfl, rfl, rfl, rfl, rfl, rfl, rfl, rfl, rfl, rfl, rfl, fun _ _ => ⟨?_, rfl⟩, fun h => by simp at h⟩
      have hdue : later 0 50000 = 50000 := by simp [later]
      rw [← hdue]
      rfl
    | false =>
      rw [if_neg (by decide), hquiet _ rfl rfl]
      exact ⟨rfl, rfl, rfl, rfl, rfl, rfl, rfl, rfl, rfl, rfl, by simp only [false_and, if_false]; rfl, rfl, rfl, rfl, rfl,
        rfl, rfl, rfl, rfl, rfl, rfl, rfl, rfl, rfl, rfl, rfl, rfl, rfl, fun _ h => by simp at h, fun _ => ⟨rfl, rfl⟩⟩

/-! ### A grant entered on before the event that ends the run (R150) -/

/-- A state that differs in the card's run alone: the card state, the operation in flight, the run and the grant. -/
def State.withRun (s : State) (x : CardState) (bus : Option CardCommand) (run : Option Run) (g : Grant) : State :=
  { s with card := { s.card with state := x, bus := bus, run := run }, budget := { s.budget with grant := g } }

/-- OPEN_RUN sent, or the run left at once. -/
theorem State.openRun_withRun (h : s.card.state = .run) : ∃ x bus run g, (x = .run ∨ x = .ready) ∧
    s.openRun = s.withRun x bus run g := by
  have hleave : ∃ x bus run g, (x = .run ∨ x = .ready) ∧ s.leaveRun = s.withRun x bus run g :=
    ⟨_, _, _, _, .inr rfl, s.leaveRun_eq⟩
  unfold State.openRun
  split
  · exact hleave
  · split
    · exact ⟨s.card.state, _, _, s.budget.grant, .inl h, rfl⟩
    · exact hleave

/-- A grant given and not yet entered on: RUN is entered, and left again where there is nothing to write. -/
theorem State.enterGranted_withRun (h : s.runGranted = true) : ∃ x bus run g, (x = .run ∨ x = .ready) ∧
    s.enterGranted = s.withRun x bus run g := by
  rw [State.enterGranted, if_pos h]
  unfold State.enterRunState
  extract_lets s1
  split
  · exact ⟨.run, _, s.card.run, s.budget.grant, .inl rfl, rfl⟩
  · obtain ⟨x, bus, run, g, hx, ho⟩ := (s.setCardState .run).openRun_withRun rfl
    exact ⟨x, bus, run, g, hx, ho⟩

theorem State.enterGranted_of_not (h : s.runGranted = false) : s.enterGranted = s := by
  rw [State.enterGranted, if_neg (by simp [h])]

/-- A grant waits only for a card READY or SLEEP. -/
theorem State.runGranted_state (h : s.runGranted = true) : s.card.state = .ready ∨ s.card.state = .sleep := by
  simp only [State.runGranted, Bool.and_eq_true, Bool.or_eq_true, decide_eq_true_eq] at h
  exact h.1.2

/-! ### Host reset (R172) -/

/-- The origin of the INIT that a host reset begins: that of an INIT started again is open. -/
def State.resetOrigin (s : State) : IdentOrigin :=
  match s.card.state, s.card.ident with
  | .init, some i => if Config.freeBool s.freeCount then i.origin else .hostReset
  | _, _ => .hostReset

/-- The free choices made once a host reset has chosen an origin. -/
def State.resetCount (s : State) : Nat :=
  match s.card.state, s.card.ident with
  | .init, some _ => s.freeCount + 1
  | _, _ => s.freeCount

theorem State.resetOrigin_of_ne (h : s.card.state ≠ .init) : s.resetOrigin = .hostReset := by
  unfold State.resetOrigin
  split
  · exact absurd ‹_› h
  · rfl

theorem State.resetCount_of_ne (h : s.card.state ≠ .init) : s.resetCount = s.freeCount := by
  unfold State.resetCount
  split
  · exact absurd ‹_› h
  · rfl

theorem State.withResetOrigin_eq (s : State) (k : IdentOrigin → State → State) :
    s.withResetOrigin k = k s.resetOrigin { s with freeCount := s.resetCount } := by
  by_cases hs : s.card.state = .init
  · unfold State.withResetOrigin State.resetOrigin State.resetCount State.chooseFree
    cases hi : s.card.ident with
    | none => simp only [hs]
    | some i =>
      simp only [hs]
      split <;> rfl
  · rw [State.resetOrigin_of_ne hs, State.resetCount_of_ne hs]
    unfold State.withResetOrigin
    split
    · exact absurd ‹_› hs
    · rfl

/-- The card controller with its work abandoned and no shock hold. -/
def CardController.dropped (c : CardController) (x : CardState) : CardController :=
  { c.abandon with state := x, shockHold := none }

/-- The INIT that a host reset begins. -/
def State.resetInit (s : State) (asleep : Bool) : CardController :=
  { s.card.dropped .init with
    leftAsleep := false
    ident := some { origin := s.resetOrigin, attempt := 1, capacity := none }
    bus := some (if asleep then ⟨.wake, later s.now 5000⟩ else ⟨.identify, later s.now 50000⟩) }

/-- A state with the card and the count of free choices replaced, and the grant released. -/
def State.withCard (s : State) (c : CardController) (n : Nat) : State :=
  { s with card := c, freeCount := n, budget := { s.budget with grant := .none } }

/-- The card's part of a host reset, by CLAIM and the presence. -/
theorem State.resetCard_eq (s : State) : s.resetCard =
    if s.pins.claim then s.withCard (s.card.dropped .yielded) s.freeCount
    else if s.card.present then s.withCard (s.resetInit (decide (s.card.state = .sleep))) s.resetCount
    else s.withCard { s.card.dropped .absent with leftAsleep := false } s.freeCount := by
  unfold State.resetCard
  rw [State.withResetOrigin_eq]
  refine if_congr Iff.rfl rfl (if_congr Iff.rfl ?_ rfl)
  unfold State.resetInit
  cases decide (s.card.state = .sleep) <;> rfl

/-- The clip recorder's part of a host reset. -/
theorem State.resetClip_eq (s : State) : s.resetClip = { s with clip := s.resetClip.clip } := by
  unfold State.resetClip State.interruptSlot
  cases s.clip.filling <;> rfl

/-- The slots and the close counter of the clip recorder at a host reset: a segment being filled is INTERRUPTED. -/
def ClipRecorder.interrupted (c : ClipRecorder) (now : Time) : ClipRecorder :=
  match c.filling with
  | none => c
  | some f => { (c.setSlot f.slot ((c.slot f.slot).left .interrupted now (c.closeCounter + 1))) with
      closeCounter := c.closeCounter + 1, filling := none }

theorem ClipRecorder.interrupted_spec (c : ClipRecorder) (now : Time) :
    (c.interrupted now).cfg = c.cfg ∧ (c.interrupted now).window = c.window ∧
    (∀ f, c.filling = some f → (c.interrupted now).closeCounter = c.closeCounter + 1 ∧
      (c.interrupted now).slots = c.slots.setIfInBounds f.slot { c.slot f.slot with
        state := .interrupted, endTime := some now, closeSeq := some (c.closeCounter + 1) }) ∧
    (c.filling = none → (c.interrupted now).closeCounter = c.closeCounter ∧ (c.interrupted now).slots = c.slots) := by
  unfold ClipRecorder.interrupted
  cases hf : c.filling with
  | none => exact ⟨rfl, rfl, fun _ h => by simp at h, fun _ => ⟨rfl, rfl⟩⟩
  | some f =>
    refine ⟨rfl, rfl, fun g hg => ?_, fun h => by simp at h⟩
    cases hg
    exact ⟨rfl, rfl⟩

theorem State.resetClip_clip (s : State) : s.resetClip.clip = { s.clip.interrupted s.now with
    state := .idle, filling := none, clipNumber := 0, mode := .loop, protectRefused := 0 } := by
  unfold State.resetClip State.interruptSlot ClipRecorder.interrupted
  cases s.clip.filling <;> rfl

/-- A host reset's effect on the blocks, with the card and the count of free choices left to say. -/
def State.reseted (s : State) (c : CardController) (n : Nat) : State :=
  { s with
    capture := s.capture.hostReset, imu := s.imu.hostReset, motion := s.motion.hostReset, frame := .reset
    buffer := s.buffer.hostReset, clip := s.resetClip.clip, card := c, freeCount := n, link := s.link.hostReset
    budget := { s.budget with grant := .none, lowRun := 0, lowState := false, orderPending := false } }

theorem State.withRun_reseted (s : State) (x : CardState) (bus : Option CardCommand) (run : Option Run) (g : Grant)
    (c : CardController) (n : Nat) : (s.withRun x bus run g).reseted c n = s.reseted c n := by
  unfold State.reseted
  rw [State.resetClip_clip, State.resetClip_clip]
  rfl

/-- The card at a host reset: a card asleep with no grant given is woken first. -/
def State.resetCardTo (s : State) : CardController :=
  if s.pins.claim then s.card.dropped .yielded
  else if s.card.present then s.resetInit (decide (s.card.state = .sleep ∧ s.runGranted = false))
  else { s.card.dropped .absent with leftAsleep := false }

/-- The free choices made once a host reset is done. -/
def State.resetCountTo (s : State) : Nat := if !s.pins.claim && s.card.present then s.resetCount else s.freeCount

/-- The parts of a host reset of a state with no grant to be entered on. -/
theorem State.reset_parts (u : State) : ({ u.resetClip.resetCard with
      capture := u.resetClip.resetCard.capture.hostReset, imu := u.resetClip.resetCard.imu.hostReset
      motion := u.resetClip.resetCard.motion.hostReset, frame := .reset
      buffer := u.resetClip.resetCard.buffer.hostReset, budget := u.resetClip.resetCard.budget.hostReset
      link := u.resetClip.resetCard.link.hostReset } : State) =
    if u.pins.claim then u.reseted (u.card.dropped .yielded) u.freeCount
    else if u.card.present then u.reseted (u.resetInit (decide (u.card.state = .sleep))) u.resetCount
    else u.reseted { u.card.dropped .absent with leftAsleep := false } u.freeCount := by
  rw [State.resetCard_eq, u.resetClip_eq]
  cases hc : u.pins.claim
  · cases hp : u.card.present
    · simp only [Bool.false_eq_true, if_false]
      rfl
    · simp only [if_true, Bool.false_eq_true, if_false]
      rfl
  · simp only [if_true]
    rfl

/-- A host reset, block by block: what a grant just entered on has done is undone with the run. -/
theorem State.hostReset_eq (s : State) : s.hostReset = s.reseted s.resetCardTo s.resetCountTo := by
  refine (State.reset_parts s.enterGranted).trans ?_
  unfold State.resetCardTo State.resetCountTo
  cases hg : s.runGranted with
  | false =>
    rw [State.enterGranted_of_not hg]
    cases s.pins.claim <;> cases s.card.present <;> simp
  | true =>
    obtain ⟨x, bus, run, g, hx, he⟩ := State.enterGranted_withRun hg
    have hinit : s.card.state ≠ .init := by rcases State.runGranted_state hg with h | h <;> simp [h]
    have hx1 : x ≠ .init := by rcases hx with rfl | rfl <;> decide
    have hx2 : x ≠ .sleep := by rcases hx with rfl | rfl <;> decide
    have hinit' : (s.withRun x bus run g).resetInit (decide (x = .sleep)) =
        s.resetInit (decide (s.card.state = .sleep ∧ true = false)) := by
      unfold State.resetInit
      rw [State.resetOrigin_of_ne hinit, State.resetOrigin_of_ne hx1, decide_eq_false hx2,
        decide_eq_false (by simp)]
      rfl
    rw [he, show (s.withRun x bus run g).card.state = x from rfl, hinit', State.resetCount_of_ne hinit,
      State.resetCount_of_ne hx1, ite_self]
    cases hc : s.pins.claim <;> cases hp : s.card.present
    all_goals
      rw [show (s.withRun x bus run g).pins.claim = _ from hc, show (s.withRun x bus run g).card.present = _ from hp]
      simp only [Bool.false_eq_true, if_false, if_true, State.withRun_reseted]
      rfl

/-- Where the reset comes in by the line, or not, it is the same reset. -/
theorem State.hostReset_pins (s : State) (b : Bool) :
    State.hostReset { s with pins := { s.pins with reset := b } } =
      { s.hostReset with pins := { s.pins with reset := b } } := by
  rw [State.hostReset_eq, State.hostReset_eq]
  unfold State.reseted
  rw [State.resetClip_clip, State.resetClip_clip]
  rfl

/-- Settles O7: both ways run the same reset, after which nothing waits to be sent. -/
theorem hostReset : Obligations.HostReset := by
  intro s hr
  have hline : exec .resetAssert s = .next { s.hostReset with pins := { s.pins with reset := true } } := by
    rw [exec_eq]
    exact congrArg _ ((if_neg (by simp [hr])).trans (s.hostReset_pins true))
  refine ⟨_, hline, fun p hl hw hp => ?_, rfl, ?_⟩
  · have hquiet : s.hostReset.arbitrate = s.hostReset := by
      rw [State.hostReset_eq, State.arbitrate_of_notices rfl rfl rfl]
      split <;> rfl
    rw [exec_eq]
    show Host.Outcome.next (s.onRestart p) = _
    rw [State.onRestart, if_pos (by rw [hl, show p.isCommand 17 = true from hw, hp]; rfl), hquiet]
    have hpins : s.hostReset.pins = s.pins := by rw [State.hostReset_eq]; rfl
    rw [← hpins]
  · rw [State.hostReset_eq]
    refine ⟨rfl, rfl, rfl, rfl, rfl, rfl, rfl, rfl, rfl, ?_⟩
    unfold State.reseted
    simp only [State.resetClip_clip]
    obtain ⟨hcfg, hwindow, hsome, hnone⟩ := s.clip.interrupted_spec s.now
    refine ⟨trivial, trivial, trivial, hcfg, hwindow, hsome, hnone, ?_⟩
    unfold State.resetCardTo
    cases hc : s.pins.claim with
    | true =>
      simp only [if_true]
      exact ⟨rfl, fun _ => ⟨rfl, rfl⟩, fun h => by simp at h, rfl, rfl, rfl, rfl, rfl, rfl, rfl, rfl, rfl, rfl, rfl⟩
    | false =>
      cases hp : s.card.present with
      | false =>
        simp only [if_false, Bool.false_eq_true]
        exact ⟨rfl, fun _ => ⟨rfl, rfl⟩, fun _ h => by simp at h, rfl, rfl, rfl, hp, rfl, rfl, rfl, rfl, rfl, rfl, rfl⟩
      | true =>
        simp only [if_true, if_false, Bool.false_eq_true]
        refine ⟨rfl, fun h => by simp at h, fun _ _ => ⟨?_, s.resetOrigin, rfl, fun h => State.resetOrigin_of_ne h,
          fun i hs hi => ?_⟩, rfl, rfl, rfl, hp, rfl, rfl, rfl, rfl, rfl, rfl, rfl⟩
        · simp only [State.resetInit, decide_eq_true_eq]
        · simp only [State.resetOrigin, hs, hi]
          split
          · exact .inl rfl
          · exact .inr rfl

end Sys2Proof.Machine
end


section
/-! SUPPORT. Requests: which row a packet selects, what is turned away, and what an executed request leaves. -/
namespace Sys2Proof.Machine

variable {s : State} {p : Packet}

/-! ### An executed request (R157, R159, R169) -/

/-- A COMMAND row executed, by its effect and its answer. -/
theorem exec_served {c : Instr} {code n : Nat} {body : State → Executed} {fin effect : State → State} {ans : Answer}
    (hx : exec c s = .next (fin (s.takeCommand p code n body))) (h : s.executes c) (hc : c.wf = p.isCommand code)
    (hn : p.payload.length = n) (hb : body s.received = (effect s.received, ans)) :
    exec c s = .next (fin (s.served p .command effect ans)) := by
  rw [hx, takeCommand_executes s c p code n body h hc hn, hb]
  rfl

/-- A COMMAND row whose payload is not as long as its arguments: BAD_ARG, and nothing carried out (R161). -/
theorem exec_badArg {c : Instr} {code n : Nat} {body : State → Executed} {fin : State → State}
    (hx : exec c s = .next (fin (s.takeCommand p code n body))) (h : s.executes c) (hc : c.wf = p.isCommand code)
    (hn : p.payload.length ≠ n) : exec c s = .next (fin (s.served p .command id (.ready .badArg []))) := by
  rw [hx, State.takeCommand, takeRequest_executes s c p _ _ _ h hc, if_neg hn]
  rfl

/-- A TABLE_LOAD row whose load fits its table, by its effect and its answer. -/
theorem exec_loaded {c : Instr} {table : Nat} {fits : Bool} {body : State → Executed} {effect : State → State}
    {ans : Answer} (hx : exec c s = .next (s.takeLoad p table fits body).arbitrate) (h : s.executes c)
    (hc : c.wf = p.isLoad table) (hf : fits = true) (hb : body s.received = (effect s.received, ans)) :
    exec c s = .next (s.served p .tableLoad effect ans).arbitrate := by
  rw [hx, takeLoad_executes s c p table fits body h hc hf, hb]
  rfl

/-! ### Requests turned away (R157, R159, R170, R174) -/

/-- A request of another row, or one that the parser cannot take, changes nothing. -/
theorem takeRequest_of_away {selected : Bool} {kind : RequestKind} {body : State → Executed}
    (h : s.listening = false ∨ selected = false) : s.takeRequest p selected kind body = s := by
  unfold State.takeRequest
  rw [if_neg]
  rcases h with h | h <;> simp [h]

/-- A request behind eight outstanding ones is dropped. -/
theorem takeRequest_of_full {selected : Bool} {kind : RequestKind} {body : State → Executed} (hl : s.listening = true)
    (hs : selected = true) (h8 : 8 ≤ s.link.outstanding.length) :
    s.takeRequest p selected kind body = s.received.overrun p.header .tooMany := by
  unfold State.takeRequest
  rw [if_pos (by rw [hl, hs]; rfl), if_pos h8]

/-- The COMMAND rows that end with the clip recorder's standing work, with the length of their arguments. -/
def clipCommandRows : List ((Packet → Instr) × Nat) := [(.clipStart, 5), (.clipStop, 0), (.flush, 0)]

/-- The other COMMAND rows that name a command, with the length of their arguments. -/
def plainCommandRows : List ((Packet → Instr) × Nat) :=
  [(.segmentFree, 1), (.segmentProtect, 1), (.segmentUnprotect, 1), (.motionStart, 0), (.motionStop, 0),
    (.chargeInhibit, 0), (.chargeAllow, 0), (.chargeClear, 0), (.inputLimit, 2), (.cardRetry, 0), (.logClear, 0),
    (.status, 0), (.park, 0), (.restart, 0)]

/-- The rows of the table operations, and the row of the codes that name no command. -/
def otherRows : List (Packet → Instr) :=
  [.unknownCommand, .windowLoad, .segmentLoad, .biasLoad, .mountLoad, .lensLoad, .motionCfgLoad, .clipCfgLoad,
    .chargeProfileLoad, .ocvLoad, .budgetCfgLoad, .tableLoadOther, .tableRead]

theorem clipCommandRows_taken (s : State) (p : Packet) : ∀ x ∈ clipCommandRows, ∃ code body,
    exec (x.1 p) s = .next (s.takeCommand p code x.2 body).conclude ∧ (x.1 p).wf = p.isCommand code := by
  simp only [clipCommandRows, List.forall_mem_cons]
  exact ⟨⟨_, _, rfl, rfl⟩, ⟨_, _, rfl, rfl⟩, ⟨_, _, rfl, rfl⟩, nofun⟩

/-- RESTART is taken like another command where it is not a host reset. -/
theorem restart_taken (h : ¬(s.listening = true ∧ p.isCommand 17 = true ∧ p.payload = [])) :
    exec (.restart p) s = .next (s.takeCommand p 17 0 (fun s' => (s', answered .ok))).arbitrate := by
  rw [exec_eq]
  refine congrArg _ (if_neg ?_)
  rw [Bool.and_eq_true, Bool.and_eq_true, List.isEmpty_iff, and_assoc]
  exact h

theorem plainCommandRows_taken (s : State) (p : Packet) : ∀ x ∈ plainCommandRows,
    (x.1 p = .restart p → ¬(s.listening = true ∧ p.isCommand 17 = true ∧ p.payload = [])) → ∃ code body,
    exec (x.1 p) s = .next (s.takeCommand p code x.2 body).arbitrate ∧ (x.1 p).wf = p.isCommand code := by
  simp only [plainCommandRows, List.forall_mem_cons]
  iterate 13 refine ⟨fun _ => ⟨_, _, rfl, rfl⟩, ?_⟩
  exact ⟨fun h => ⟨17, _, restart_taken (h trivial), rfl⟩, nofun⟩

theorem plainCommandRows_restart (p : Packet) : ∀ x ∈ plainCommandRows, x.1 p = .restart p → x.2 = 0 := by
  simp [plainCommandRows]

theorem otherRows_taken (s : State) (p : Packet) : ∀ c ∈ otherRows, ∃ kind body,
    exec (c p) s = .next (s.takeRequest p (c p).wf kind body).arbitrate := by
  simp only [otherRows, List.forall_mem_cons]
  iterate 13 refine ⟨⟨_, _, rfl⟩, ?_⟩
  exact nofun

/-- Every request row of the part that is not a clip command, RESTART that resets apart, is taken and then arbitrated. -/
theorem rows_taken (s : State) (p : Packet) {c : Packet → Instr} (hc : c ∈ plainCommandRows.map Prod.fst ++ otherRows)
    (hr : c p = .restart p → ¬(s.listening = true ∧ p.isCommand 17 = true ∧ p.payload = [])) :
    ∃ kind body, exec (c p) s = .next (s.takeRequest p (c p).wf kind body).arbitrate := by
  rcases List.mem_append.mp hc with h | h
  · obtain ⟨x, hx, rfl⟩ := List.mem_map.mp h
    obtain ⟨code, body, he, hw⟩ := plainCommandRows_taken s p x hx hr
    exact ⟨_, _, by rw [he, hw]; rfl⟩
  · exact otherRows_taken s p c h

theorem clipRows_taken (s : State) (p : Packet) {c : Packet → Instr} (hc : c ∈ clipCommandRows.map Prod.fst) :
    ∃ kind body, exec (c p) s = .next (s.takeRequest p (c p).wf kind body).conclude := by
  obtain ⟨x, hx, rfl⟩ := List.mem_map.mp hc
  obtain ⟨code, body, he, hw⟩ := clipCommandRows_taken s p x hx
  exact ⟨_, _, by rw [he, hw]; rfl⟩

/-! ### The row that a packet selects (R174) -/

theorem isKind_iff (p : Packet) (k : Nat) : p.isKind k = true ↔
    p.header.isMalformed = false ∧ p.header.kindCode = k ∧ p.payload.length = p.header.len.toNat := by
  simp [Packet.isKind, and_assoc]

theorem commandRow_wf (h : p.isKind 2 = true) : (commandRow p).wf = true := by
  unfold commandRow
  split <;> simp only [Instr.wf, Packet.isCommand, Packet.isUnknown, *]
  case h_18 =>
    simp only [imp_false] at *
    simp
    omega
  all_goals rfl

theorem loadRow_wf (h : p.isKind 3 = true) : (loadRow p).wf = true := by
  unfold loadRow
  split <;> simp only [Instr.wf, Packet.isLoad, *]
  case h_11 =>
    unfold fitsTable
    split <;> simp_all
  all_goals rfl

/-- A packet selects a row of its own kind and code. -/
theorem packetRow_wf (h : p.payload.length = p.header.len.toNat) : (packetRow p).wf = true := by
  unfold packetRow
  split
  · assumption
  · rename_i hm
    rw [Bool.not_eq_true] at hm
    split
    · rename_i hk
      simp [Instr.wf, hm, hk]
    · exact commandRow_wf ((isKind_iff p 2).mpr ⟨hm, ‹_›, h⟩)
    · exact loadRow_wf ((isKind_iff p 3).mpr ⟨hm, ‹_›, h⟩)
    · refine (isKind_iff p 4).mpr ⟨hm, ?_, h⟩
      have := (isMalformed_iff p.header).not.mp (by simp [hm])
      unfold Header.kindCode at *
      simp only [imp_false] at *
      omega

theorem packetRow_of_command {n : Nat} (h : p.isCommand n = true) :
    packetRow p = commandRow p ∧ p.header.commandCode = n := by
  simp only [Packet.isCommand, Bool.and_eq_true, isKind_iff, decide_eq_true_eq] at h
  obtain ⟨⟨hm, hk, -⟩, hc⟩ := h
  exact ⟨by simp [packetRow, hm, hk], hc⟩

theorem packetRow_of_load {n : Nat} (h : p.isLoad n = true) :
    packetRow p = loadRow p ∧ p.header.tableCode = n := by
  simp only [Packet.isLoad, Bool.and_eq_true, isKind_iff, decide_eq_true_eq] at h
  obtain ⟨⟨hm, hk, -⟩, hc⟩ := h
  exact ⟨by simp [packetRow, hm, hk], hc⟩

/-- A command row's packet selects it. -/
theorem packetRow_commands (p : Packet) :
    ∀ x ∈ clipCommandRows ++ plainCommandRows, (x.1 p).wf = true → packetRow p = x.1 p := by
  simp only [clipCommandRows, plainCommandRows, List.cons_append, List.nil_append, List.forall_mem_cons]
  refine ⟨?_, ?_, ?_, ?_, ?_, ?_, ?_, ?_, ?_, ?_, ?_, ?_, ?_, ?_, ?_, ?_, ?_, nofun⟩ <;> intro h <;>
    (obtain ⟨hr, hc⟩ := packetRow_of_command h; simp only [hr, commandRow, hc])

/-- A table row's packet selects it; TABLE_LOAD_OTHER takes the loads of the others that do not fit as well. -/
theorem packetRow_others (p : Packet) :
    ∀ c ∈ otherRows, (c p).wf = true → packetRow p = c p ∨ c p = .tableLoadOther p := by
  simp only [otherRows, List.forall_mem_cons]
  refine ⟨fun h => .inl ?_, ?_, ?_, ?_, ?_, ?_, ?_, ?_, ?_, ?_, ?_, fun _ => .inr trivial, fun h => .inl ?_, nofun⟩
  · simp only [Instr.wf, Packet.isUnknown, Bool.and_eq_true, isKind_iff] at h
    obtain ⟨⟨hm, hk, -⟩, hc⟩ := h
    have hrow : packetRow p = commandRow p := by simp [packetRow, hm, hk]
    rw [hrow]
    unfold commandRow
    split <;> simp_all
  all_goals try
    intro h
    obtain ⟨hr, hc⟩ := packetRow_of_load h
    exact .inl (by simp only [hr, loadRow, hc])
  · obtain ⟨hm, hk, -⟩ := (isKind_iff p 4).mp h
    simp [packetRow, hm, hk]

/-! ### All the rows together -/

/-- Settles O29: a request row is `takeRequest` and then the end of its event; which is turned away, refused or dropped is
decided there. -/
theorem requestsTurnedAway : Obligations.RequestsTurnedAway := by
  unfold Obligations.RequestsTurnedAway
  intro clipRows rows
  have hclip : clipRows = clipCommandRows.map Prod.fst := rfl
  have hrows : rows = plainCommandRows.map Prod.fst ++ otherRows := rfl
  refine ⟨fun p hp => ⟨packetRow_wf hp, fun c hc hw => ?_⟩, fun s p => ⟨fun c hc h => ?_, fun c hc h => ?_⟩,
    fun s p => ⟨fun c n hc h hn => ?_, fun c n hc h hn => ?_, fun h => ?_⟩, fun s p hl h8 => ⟨fun c hc hw hr => ?_,
    fun c hc hw => ?_⟩, fun s hr => ⟨?_, ?_, fun h payload => ⟨?_, ?_, ?_⟩, ?_⟩⟩
  · rw [hclip, hrows, ← List.append_assoc, ← List.map_append] at hc
    rcases List.mem_append.mp hc with hc | hc
    · obtain ⟨x, hx, rfl⟩ := List.mem_map.mp hc
      exact .inl (packetRow_commands p x hx hw)
    · exact packetRow_others p c hc hw
  · obtain ⟨kind, body, he⟩ := rows_taken s p (hrows ▸ hc) (fun hr k => by
      rw [hr] at h
      rcases h with h | h
      · simp [h] at k
      · exact absurd k.2.1 (by simpa [Instr.wf] using h))
    rw [he, takeRequest_of_away h]
  · obtain ⟨kind, body, he⟩ := clipRows_taken s p (hclip ▸ hc)
    rw [he, takeRequest_of_away h]
  · obtain ⟨code, body, he, hw⟩ := clipCommandRows_taken s p (c, n) hc
    exact exec_badArg he h hw hn
  · obtain ⟨code, body, he, hw⟩ := plainCommandRows_taken s p (c, n) hc fun hr k => by
      have h0 : n = 0 := plainCommandRows_restart p (c, n) hc hr
      exact hn (by rw [h0, k.2.2]; rfl)
    exact exec_badArg he h hw hn
  · rw [show exec (.unknownCommand p) s = .next (s.takeRequest p p.isUnknown .command
      (fun s' => (s', answered .unknown))).arbitrate from rfl, takeRequest_executes s (.unknownCommand p) p p.isUnknown _ _ h rfl]
    rfl
  · obtain ⟨kind, body, he⟩ := rows_taken s p (hrows ▸ hc) (fun h k => hr.elim (· h) (· k.2.2))
    rw [he, takeRequest_of_full hl hw h8]
    rfl
  · obtain ⟨kind, body, he⟩ := clipRows_taken s p (hclip ▸ hc)
    rw [he, takeRequest_of_full hl hw h8]
    rfl
  · simp [State.listening, hr]
  · simp [State.arbitrate, hr]
  · rw [exec_eq]
    exact congrArg _ (if_neg (by simp [State.listening, hr]))
  · rw [exec_eq]
    exact congrArg _ (if_pos hr)
  · rw [exec_eq]
    exact congrArg _ (if_neg (by simp [State.listening, hr]))
  · rw [exec_eq]
    exact congrArg _ (if_pos hr)

end Sys2Proof.Machine
end


section
/-! SUPPORT. The commands of the segment table, of motion, the card and the part: what each does and answers. -/
namespace Sys2Proof.Machine

variable {s : State} {p : Packet}

/-! ### Arguments of commands -/

/-- One byte of a payload. -/
theorem leNat_slice_one {bs : List Byte} {i : Nat} (h : i < bs.length) :
    leNat (slice bs i 1) = (bs.getD i 0).toNat := by
  rw [slice, List.drop_eq_getElem_cons h, List.getD_eq_getElem _ _ h]
  show bs[i].toNat + 256 * 0 = _
  omega

theorem slotArg_singleton (b : Byte) : slotArg [b] = b.toNat := by
  rw [slotArg, leNat_slice_one (by simp)]
  rfl

/-! ### The segment table (R86, R87) -/

/-- SEGMENT_FREE, executed. -/
theorem exec_segmentFree {b : Byte} {effect : State → State} {ans : Answer} (h : s.executes (.segmentFree p))
    (hp : p.payload = [b]) (hb : s.received.segmentFree b.toNat = (effect s.received, ans)) :
    exec (.segmentFree p) s = .next (s.served p .command effect ans).arbitrate :=
  exec_served (n := 1) rfl h rfl (by rw [hp]; rfl) (by rw [hp, slotArg_singleton, hb])

/-- SEGMENT_PROTECT, executed. -/
theorem exec_segmentProtect {b : Byte} {effect : State → State} {ans : Answer} (h : s.executes (.segmentProtect p))
    (hp : p.payload = [b]) (hb : s.received.segmentProtect b.toNat = (effect s.received, ans)) :
    exec (.segmentProtect p) s = .next (s.served p .command effect ans).arbitrate :=
  exec_served (n := 1) rfl h rfl (by rw [hp]; rfl) (by rw [hp, slotArg_singleton, hb])

/-- SEGMENT_UNPROTECT, executed. -/
theorem exec_segmentUnprotect {b : Byte} {effect : State → State} {ans : Answer}
    (h : s.executes (.segmentUnprotect p)) (hp : p.payload = [b])
    (hb : s.received.segmentUnprotect b.toNat = (effect s.received, ans)) :
    exec (.segmentUnprotect p) s = .next (s.served p .command effect ans).arbitrate :=
  exec_served (n := 1) rfl h rfl (by rw [hp]; rfl) (by rw [hp, slotArg_singleton, hb])

/-- Settles O34: each command's tests, in their order. -/
theorem segmentCommands : Obligations.SegmentCommands := by
  refine ⟨fun s p b h hp => ?_, fun s p q b h h' hp hq => ?_⟩
  · intro x answers
    have hx : s.received.clip.slot b.toNat = x := rfl
    have hfree : s.received.segmentFree b.toNat =
        if 63 < b.toNat ∨ x.state = .empty then (s.received, answered .badArg)
        else if x.state = .filling ∨ x.prot.isSome then (s.received, answered .busy)
        else if x.state = .free then (s.received, answered .ok)
        else (s.received.setSlot b.toNat x.freed, answered .ok) := rfl
    refine ⟨fun k => exec_segmentFree h hp ?_, fun k1 k2 => exec_segmentFree h hp ?_, fun k1 k2 k3 =>
      exec_segmentFree h hp ?_, fun k1 k2 k3 => exec_segmentFree h hp ?_, fun k1 k2 k3 => exec_segmentFree h hp ?_⟩
    all_goals rw [hfree]
    · rw [if_pos k]
      rfl
    all_goals have hb : ¬ 63 < b.toNat := by omega
    · rw [if_neg (by simp [hb, k2]), if_pos (.inl k2)]
      rfl
    · rw [if_neg (by simp [hb, k2]), if_pos (.inr (Option.isSome_iff_ne_none.mpr k3))]
      rfl
    · rw [if_neg (by simp [hb, k2]), if_neg (by simp [k2, k3]), if_pos k2]
      rfl
    · obtain ⟨h1, h2, h3⟩ : x.state ≠ .empty ∧ x.state ≠ .filling ∧ x.state ≠ .free := by
        rcases k2 with k | k | k <;> simp [k]
      rw [if_neg (by simp [hb, h1]), if_neg (by simp [h2, k3]), if_neg h3]
      dsimp only
      rw [k3]
      rfl
  · intro x set answers full
    have hprot : s.received.segmentProtect b.toNat =
        if 63 < b.toNat ∨ x.state = .empty ∨ x.state = .free ∨ x.state = .unusable then (s.received, answered .badArg)
        else if x.prot.isSome then (s.received, answered .ok)
        else if s.clip.protectedCount < s.clip.cfg.protectLimit then
          (s.received.setSlot b.toNat { x with prot := some .host }, answered .ok)
        else (s.received, answered .limit) := rfl
    have hfull (k : b.toNat ≤ 63) :
        full ↔ ¬(63 < b.toNat ∨ x.state = .empty ∨ x.state = .free ∨ x.state = .unusable) := by
      simp only [full, Nat.not_lt.mpr k, false_or]
      cases x.state <;> simp
    refine ⟨fun k => ⟨exec_segmentProtect h hp ?_, exec_segmentUnprotect h' hq ?_⟩, fun k =>
      ⟨fun hf => exec_segmentProtect h hp ?_, fun hf hpr => exec_segmentProtect h hp ?_, fun hf hpr hl =>
        exec_segmentProtect h hp ?_, fun hf hpr hl => exec_segmentProtect h hp ?_, exec_segmentUnprotect h' hq ?_⟩⟩
    · rw [hprot, if_pos (.inl k)]
      rfl
    · rw [State.segmentUnprotect, if_pos k]
      rfl
    · rw [hprot, if_pos (not_not.mp ((hfull k).not.mp hf))]
      rfl
    · rw [hprot, if_neg ((hfull k).mp hf), if_pos (Option.isSome_iff_ne_none.mpr hpr)]
      rfl
    · rw [hprot, if_neg ((hfull k).mp hf), if_neg (by simp [hpr]), if_neg (Nat.not_lt.mpr hl)]
      rfl
    · rw [hprot, if_neg ((hfull k).mp hf), if_neg (by simp [hpr]), if_pos hl]
      rfl
    · rw [State.segmentUnprotect, if_neg (by omega)]
      rfl

/-! ### CLIP_START's refusals (R90, R91) -/

/-- CLIP_START, executed. -/
theorem exec_clipStart {effect : State → State} {ans : Answer} (h : s.executes (.clipStart p))
    (hp : p.payload.length = 5) (hb : s.received.clipStart p.payload = (effect s.received, ans)) :
    exec (.clipStart p) s = .next (s.served p .command effect ans).conclude :=
  exec_served (n := 5) rfl h rfl hp hb

theorem clipModeOf_eq {m : Nat} (h : m ≤ 1) : clipModeOf m = some (if m = 0 then .loop else .linear) := by
  obtain rfl | rfl : m = 0 ∨ m = 1 := by omega
  · rfl
  · rfl

theorem clipModeOf_none {m : Nat} (h : 1 < m) : clipModeOf m = none := by
  unfold clipModeOf
  split <;> first | omega | rfl

/-- Settles O31: the tests in their order; a search without a candidate finds no slot. -/
theorem clipStartRefused : Obligations.ClipStartRefused := by
  intro s p h hp mode card answers
  have hmode : leNat (slice p.payload 4 1) = mode := leNat_slice_one (by omega)
  refine ⟨fun hc => exec_clipStart h hp ?_, fun hc => ⟨fun hm => exec_clipStart h hp ?_, fun hm => ⟨fun hcard =>
    exec_clipStart h hp ?_, fun hcard hno => exec_clipStart h hp ?_⟩⟩⟩
  · rw [State.clipStart, if_pos (by exact hc)]
    rfl
  all_goals rw [State.clipStart, if_neg (by simpa using hc), hmode]
  · rw [clipModeOf_none hm]
    rfl
  all_goals rw [clipModeOf_eq hm]; dsimp only
  · rw [if_neg (by exact hcard)]
    rfl
  · have hslot : s.received.clip.NoSlot (if mode = 0 then .loop else .linear) none := by
      intro i _
      rcases Nat.lt_or_ge i 64 with hi | hi
      · obtain ⟨h1, h2⟩ := hno i hi
        refine ⟨h1, h2.imp_left fun hm1 => ?_⟩
        rw [hm1]
        rfl
      · rw [ClipRecorder.slot_outside _ hi]
        simp
    rw [if_pos (by exact hcard), State.seekSlot_none _ hslot.candidate]
    rfl

/-! ### CARD_RETRY and PARK (R105, R115, R123, R168) -/

/-- Settles O39: by the card's state, and by the clip, motion and the bus. -/
theorem cardRetryAndPark : Obligations.CardRetryAndPark := by
  intro s p answers
  have retry {effect : State → State} {ans : Answer} (h : s.executes (.cardRetry p)) (hp : p.payload = [])
      (hb : s.received.cardRetry = (effect s.received, ans)) :
      exec (.cardRetry p) s = .next (s.served p .command effect ans).arbitrate :=
    exec_served (n := 0) rfl h rfl (by rw [hp]; rfl) hb
  have park {effect : State → State} {ans : Answer} (h : s.executes (.park p)) (hp : p.payload = [])
      (hb : s.received.parkCommand = (effect s.received, ans)) :
      exec (.park p) s = .next (s.served p .command effect ans).arbitrate :=
    exec_served (n := 0) rfl h rfl (by rw [hp]; rfl) hb
  refine ⟨fun h hp => ⟨fun hc => retry h hp ?_, fun hc => retry h hp ?_, fun h1 h2 => retry h hp ?_⟩,
    fun h hp => ⟨fun hbusy => park h hp ?_, fun hc hm => ⟨fun h1 h2 => park h hp ?_, fun hn => park h hp ?_⟩⟩⟩
  · rw [State.cardRetry, show s.received.card.state = .fault from hc]
    rfl
  · rw [State.cardRetry, show s.received.card.state = .absent from hc]
    rfl
  · unfold State.cardRetry
    split
    · exact absurd ‹_› h1
    · exact absurd ‹_› h2
    all_goals rfl
  · rw [State.parkCommand, if_neg]
    · rfl
    · rintro ⟨k1, k2⟩
      exact hbusy.elim (· k1) (by rw [show s.imu.active = false from k2]; simp)
  · rw [State.parkCommand, if_pos ⟨hc, hm⟩]
    unfold State.enterPark
    rw [if_pos ⟨h1, by rw [show s.received.card.bus = none from h2]; rfl⟩]
    refine Prod.ext ?_ rfl
    unfold State.sendSleep State.setCardState State.send
    rw [← h1]
    rfl
  · rw [State.parkCommand, if_pos ⟨hc, hm⟩]
    unfold State.enterPark
    rw [if_neg]
    · rfl
    · rintro ⟨k1, k2⟩
      exact hn.elim (· k1) (· (Option.isNone_iff_eq_none.mp k2))

/-! ### MOTION_START and MOTION_STOP (R16, R17, R20) -/

/-- Settles O35: the session begins; where the port is free it goes to INIT at once, by the pairs and the settle time. -/
theorem motionStart : Obligations.MotionStart := by
  intro s p h hp begun settled
  have starts {effect : State → State} {ans : Answer} (hb : s.received.motionStart = (effect s.received, ans)) :
      exec (.motionStart p) s = .next (s.served p .command effect ans).arbitrate :=
    exec_served (n := 0) rfl h rfl (by rw [hp]; rfl) hb
  have hbegin (hm : s.imu.active = false) : s.received.motionStart =
      if s.imu.txn.isSome then (s.received.startSession, .awaitStart)
      else (s.received.startSession.startInit settled,
        if (s.received.startSession.startInit settled).imu.state = .idle then answered .ok else .awaitStart) :=
    if_neg (by simpa using hm)
  refine ⟨fun hm => starts (if_pos hm), fun hm ht hs => ?_, fun x hm ht => starts ?_⟩
  · rw [if_neg (by simp [ht])] at hbegin
    rcases hpairs : s.imu.cfg.pairs with _ | ⟨⟨a, v⟩, rest⟩
    · have hinit : s.received.startSession.startInit settled = State.settleUntil
          { s.received.startSession with imu := { s.received.startSession.imu with state := .init } } settled := by
        rw [State.startInit, show s.received.startSession.imu.cfg.pairs = [] from hpairs]
      rcases Nat.eq_zero_or_pos s.imu.cfg.settleMs with h0 | h0
      · have hnow : atOrAfter s.now settled = true := by simp [settled, h0, later]
        rw [State.settleUntil, if_pos (by exact hnow)] at hinit
        rw [hinit] at hbegin
        refine ⟨_, .ready .ok [], starts (hbegin hm), rfl, fun _ _ _ k => by simp at k, fun _ k => by omega,
          fun _ _ => ⟨rfl, rfl, rfl⟩⟩
      · have hlater : atOrAfter s.now settled = false :=
          atOrAfter_later s.now (us := 1000 * s.imu.cfg.settleMs) (by omega) (by omega)
        rw [State.settleUntil, if_neg (ne_true_of_eq_false (by exact hlater))] at hinit
        rw [hinit] at hbegin
        refine ⟨{ s.imu with active := true, state := .init, txn := none, settleDue := some settled }, .awaitStart,
          starts (hbegin hm), rfl, fun _ _ _ k => by simp at k, fun _ _ => ⟨rfl, rfl, rfl, rfl⟩,
          fun _ k => by omega⟩
    · have hinit : s.received.startSession.startInit settled = { s.received.startSession with
          imu := ImuPort.writePair { s.received.startSession.imu with state := .init } 0 (a, v) } := by
        rw [State.startInit, show s.received.startSession.imu.cfg.pairs = _ from hpairs]
      rw [hinit] at hbegin
      refine ⟨{ s.imu with active := true, state := .init, txn := some (.write 0 (a &&& 0x7F) v), settleDue := none },
        .awaitStart, starts (hbegin hm), rfl, fun a' v' rest' k => ?_, fun k => by simp at k,
        fun k => by simp at k⟩
      cases k
      exact ⟨rfl, rfl, rfl⟩
  · rw [hbegin hm, if_pos (by rw [ht]; rfl)]
    rfl

/-- The blocks at a MOTION_STOP that stops motion, a MOTION_START not yet answered answered BUSY. -/
def State.stopped (s : State) : State := s.received.stopSession.answerWaiting .awaitStart .busy

/-- Settles O36: BUSY while a clip is open; otherwise the session ends, and the port with its transaction. -/
theorem motionStop : Obligations.MotionStop := by
  intro s p h hp
  have stops {effect : State → State} {ans : Answer} (hb : s.received.motionStop = (effect s.received, ans)) :
      exec (.motionStop p) s = .next (s.served p .command effect ans).arbitrate :=
    exec_served (n := 0) rfl h rfl (by rw [hp]; rfl) hb
  have hopen : s.clip.state.isOpen = true ↔ s.clip.state ≠ .idle := by cases s.clip.state <;> simp [ClipState.isOpen]
  have hstop : s.received.motionStop =
      if s.clip.state.isOpen then (s.received, answered .busy)
      else if s.imu.active then
        if s.imu.txn.isSome then ({ s.stopped with imu := { s.stopped.imu with stale := true } }, .awaitStop)
        else ({ s.stopped with imu := { s.stopped.imu with state := .stopped } }, answered .ok)
      else (s.received, answered .ok) := rfl
  have hmotion : s.motion.promoteNow =
      let m := { s.motion with bias := ⟨s.motion.bias.newest, none⟩, mount := ⟨s.motion.mount.newest, none⟩,
                               lens := ⟨s.motion.lens.newest, none⟩ }
      if s.motion.lens.pending = none then m
      else { m with axes := ⟨s.motion.axes.yaw.lineUp s.motion.lens.newest.axes.yaw,
        s.motion.axes.pitch.lineUp s.motion.lens.newest.axes.pitch,
        s.motion.axes.roll.lineUp s.motion.lens.newest.axes.roll⟩ } := by
    unfold MotionComputer.promoteNow
    by_cases hl : s.motion.lens.pending = none
    · rw [if_neg (by simp [hl])]
      exact (if_pos hl).symm
    · rw [if_pos (Option.isSome_iff_ne_none.mpr hl)]
      exact (if_neg hl).symm
  refine ⟨fun hc => stops ?_, fun hc hm => stops ?_, fun hc hm => stops ?_⟩
  · rw [hstop, if_pos (hopen.mpr hc)]
    rfl
  · rw [hstop, if_neg (fun k => hopen.mp k hc), if_neg (ne_true_of_eq_false hm)]
    rfl
  · rw [hstop, if_neg (fun k => hopen.mp k hc), if_pos hm]
    have hm1 : s.stopped.motion = s.motion.promoteNow := rfl
    rw [hmotion] at hm1
    by_cases ht : s.imu.txn = none
    · rw [if_neg (by simp [ht])]
      refine Prod.ext ?_ (if_pos ht).symm
      dsimp only
      rw [if_pos ht, hm1]
      rfl
    · rw [if_pos (Option.isSome_iff_ne_none.mpr ht)]
      refine Prod.ext ?_ (if_neg ht).symm
      dsimp only
      rw [if_neg ht, hm1]
      rfl

/-! ### The charge commands (R135, R137, R138, R139) -/

/-- The budget as a stage is entered, field by field. -/
theorem Budget.onEnter_eq (b : Budget) (st : Stage) : b.onEnter st = { b with
    setpoint := if st = .precharge ∨ st = .fast ∨ st = .taper ∨ st = .topOff then b.setpoint else 0
    charge := if st = .full then b.cfg.capacity.toNat * 360000 else b.charge
    estimated := if st = .full then false else b.estimated } := by
  cases st <;> rfl

/-- A stage other than FAULT TIMER or BATTERY entered and its ceiling handed over, block by block. -/
theorem State.enterStage_ceiling (u : State) (st : Stage) (elapsed : Nat)
    (h : st = .fault → u.charge.causes.overVoltage = false) :
    (u.enterStage st elapsed none).updateCeiling = State.raiseIf { u with
        charge := { u.charge with
          stage := st, runCount := 0, elapsed := elapsed, fault := none
          safety := if st = .qualify then 0 else u.charge.safety
          ovLimit := if st = .fault then none else u.charge.ovLimit
          ceiling := ChargeController.stageCeiling { u.charge with stage := st } }
        budget := u.budget.onEnter st }
      (decide (st = .full ∨ st = .hold ∨ st = .fault))
      (.chargeState st none (if st = .hold then u.charge.causes else .clear) u.budget.readings.vbat) := by
  cases st
  case fault =>
    have hov : { u.charge.causes with overVoltage := false } = u.charge.causes := by rw [← h rfl]
    unfold State.enterStage ChargeController.onEnter
    simp only [if_true, hov]
    rfl
  all_goals rfl

theorem Stage.isHoldable_iff (st : Stage) : st.isHoldable = true ↔ st ≠ .idle ∧ st ≠ .hold ∧ st ≠ .fault := by
  cases st <;> simp [Stage.isHoldable]

theorem Stage.resumeStage_eq (st : Stage) : st.resumeStage = match st with
    | .precharge => .precharge | .fast | .taper | .topOff => .fast | .full => .full | _ => .qualify := by
  cases st <;> rfl

/-- Without INHIBIT a cause that stands is one of the four others. -/
theorem HoldCauses.any_eq_false_iff {x : HoldCauses} (h : x.inhibit = false) : x.any = false ↔
    ¬(x.temp = true ∨ x.thermal = true ∨ x.profile = true ∨ x.overVoltage = true) := by
  simp [HoldCauses.any, h, and_assoc]

/-- Settles O37: the flag and the cause, and the stage entered where one is. -/
theorem chargeCommands : Obligations.ChargeCommands := by
  intro s p hp c served entered inhibited allowed others
  have hlen : p.payload.length = 0 := by rw [hp]; rfl
  have inhibits {effect : State → State} (h : s.executes (.chargeInhibit p))
      (hb : s.received.chargeInhibit = (effect s.received, answered .ok)) : served (.chargeInhibit p) effect :=
    exec_served (n := 0) rfl h rfl hlen hb
  have allows {effect : State → State} (h : s.executes (.chargeAllow p))
      (hb : s.received.chargeAllow = (effect s.received, answered .ok)) : served (.chargeAllow p) effect :=
    exec_served (n := 0) rfl h rfl hlen hb
  have clears {effect : State → State} (h : s.executes (.chargeClear p))
      (hb : s.received.chargeClear = (effect s.received, answered .ok)) : served (.chargeClear p) effect :=
    exec_served (n := 0) rfl h rfl hlen hb
  have hany : allowed.causes.any = false ↔ ¬others := HoldCauses.any_eq_false_iff rfl
  refine ⟨fun h => ⟨fun hst => inhibits h ?_, fun h1 h2 h3 => inhibits h ?_⟩,
    fun h => ⟨fun hst => allows h ?_, fun hst ho => allows h ?_⟩,
    fun h => ⟨fun hst => clears h ?_, fun hst => clears h ?_⟩⟩ <;> refine Prod.ext ?_ rfl
  · refine if_neg fun k => ?_
    obtain ⟨k1, k2, k3⟩ := (Stage.isHoldable_iff c.stage).mp k
    exact hst.elim k1 (·.elim k2 k3)
  · refine (if_pos ((Stage.isHoldable_iff c.stage).mpr ⟨h1, h2, h3⟩)).trans ?_
    refine (State.enterStage_ceiling _ .hold _ nofun).trans ?_
    rw [Budget.onEnter_eq, Stage.resumeStage_eq]
    have he : (c.stage = .precharge ∨ c.stage = .hold ∧ Stage.hold = Stage.precharge) = (c.stage = .precharge) := by
      simp
    simp only [entered, he]
    rfl
  · refine if_neg ?_
    rintro ⟨k1, k2⟩
    exact hst.elim (· k1) (hany.mp k2)
  · refine (if_pos ⟨hst, hany.mpr ho⟩).trans ?_
    refine (State.enterStage_ceiling _ _ _ fun _ => ?_).trans ?_
    · exact Bool.not_eq_true _ ▸ fun k => ho (.inr (.inr (.inr k)))
    · rw [Budget.onEnter_eq]
      have he : (c.stage = .precharge ∨ c.stage = .hold ∧ c.resume = .precharge) = (c.resume = .precharge) := by
        simp [hst]
      simp only [entered, he]
      rfl
  · refine (if_pos hst).trans ?_
    refine (State.enterStage_ceiling _ .idle _ nofun).trans ?_
    rw [Budget.onEnter_eq]
    have he : (c.stage = .precharge ∨ c.stage = .hold ∧ Stage.idle = Stage.precharge) = False := by simp [hst]
    simp only [entered, he, if_false]
    rfl
  · exact if_neg hst

end Sys2Proof.Machine
end


section
/-! SUPPORT. CLIP_START, CLIP_STOP and FLUSH carried out (R55, R76, R77, R90, R91, R99). -/
namespace Sys2Proof.Machine

variable {s : State} {p : Packet}

/-! ### A flush requested with the last descriptor queued (R76, R77) -/

/-- The last descriptor of the queue is the later mark, whatever queued mark is pending. -/
theorem ChunkBuffer.combineMark_last {b : ChunkBuffer} {q : List Chunk} {c : Chunk} (hq : b.queue = q ++ [c])
    (hd : ∀ d ∈ q, d.seq ≠ c.seq) (hm : ∀ m, b.flush = some m → ∃ d ∈ b.queue, d.seq = m) :
    b.combineMark c.seq = c.seq := by
  rw [b.combineMark_eq]
  cases hf : b.flush with
  | none => rfl
  | some m =>
    have hbefore : b.queue.takeWhile (fun e => decide (e.seq ≠ c.seq)) = q := by
      rw [hq, List.takeWhile_append_of_pos (by simpa using hd)]
      simp
    obtain ⟨d, hdq, rfl⟩ := hm m hf
    rw [hq, List.mem_append, List.mem_singleton] at hdq
    simp only [hbefore]
    split
    · rfl
    · rename_i hn
      rcases hdq with hdq | rfl
      · exact absurd (List.mem_map_of_mem hdq) hn
      · rfl

theorem ChunkBuffer.lastQueued_append {b : ChunkBuffer} {q : List Chunk} {c : Chunk} (hq : b.queue = q ++ [c]) :
    b.lastQueued = some c.seq := by
  simp [ChunkBuffer.lastQueued, hq]

theorem ChunkBuffer.lastQueued_nil {b : ChunkBuffer} (hq : b.queue = []) : b.lastQueued = none := by
  simp [ChunkBuffer.lastQueued, hq]

/-- The flush mark set. -/
def State.marked (s : State) (m : Word32) : State := { s with buffer := { s.buffer with flush := some m } }

/-- A flush requested with the last descriptor as its mark: the mark is set, and the filler follows where due. -/
theorem State.requestFlush_last {q : List Chunk} {c : Chunk} (hq : s.buffer.queue = q ++ [c])
    (hd : ∀ d ∈ q, d.seq ≠ c.seq) (hm : ∀ m, s.buffer.flush = some m → ∃ d ∈ s.buffer.queue, d.seq = m) :
    s.requestFlush s.buffer.lastQueued = (s.marked c.seq).padMark := by
  rw [ChunkBuffer.lastQueued_append hq]
  unfold State.requestFlush State.markFlush
  simp only [ChunkBuffer.combineMark_last hq hd hm]
  rfl

/-- Whether the marked chunk's placement ends the stream: only the last descriptor bears the mark. -/
theorem mark_ends_stream_iff {q : List Chunk} {c : Chunk} {n : Nat} (hd : ∀ d ∈ q, d.seq ≠ c.seq) :
    (q ++ [c]).any (fun d => decide (d.seq = c.seq) && d.place.isSome && decide (d.streamEnd = n)) = true ↔
      ∃ o, c.place = some o ∧ o + (16 + c.length) = n := by
  have hq : ∀ d ∈ q, ¬(decide (d.seq = c.seq) && d.place.isSome && decide (d.streamEnd = n)) = true := by
    intro d h; simp [hd d h]
  rw [List.any_append, Bool.or_eq_true, or_iff_right (by rw [List.any_eq_true]; rintro ⟨d, h, h'⟩; exact hq d h h')]
  cases hp : c.place with
  | none => simp [hp]
  | some o => simp [hp, Chunk.streamEnd, Chunk.streamBytes]

/-- No filler follows a mark whose chunk stands nowhere, or while no segment is FILLING. -/
theorem State.padMark_unplaced {q : List Chunk} {c : Chunk} (hq : s.buffer.queue = q ++ [c])
    (hd : ∀ d ∈ q, d.seq ≠ c.seq) (h : c.place = none ∨ s.clip.filling = none) :
    (s.marked c.seq).padMark = s.marked c.seq := by
  unfold State.padMark
  split
  · rename_i f m hf hm
    have hf' : s.clip.filling = some f := hf
    obtain rfl : c.seq = m := Option.some.inj hm
    rw [if_neg]
    show ¬ s.buffer.queue.any _ = true
    rw [hq, mark_ends_stream_iff hd]
    simp [h.resolve_right (by simp [hf'])]
  · rfl

/-- A flush requested with a last descriptor that stands nowhere: the mark alone is set. -/
theorem State.requestFlush_unplaced {q : List Chunk} {c : Chunk} (hq : s.buffer.queue = q ++ [c])
    (hd : ∀ d ∈ q, d.seq ≠ c.seq) (hf : s.buffer.flush = none) (h : c.place = none) :
    s.requestFlush s.buffer.lastQueued = s.marked c.seq :=
  (State.requestFlush_last hq hd (fun m hm => (Option.some_ne_none m (hm.symm.trans hf)).elim)).trans
    (State.padMark_unplaced hq hd (.inl h))

/-- A mark whose chunk is placed: the filler follows exactly where that chunk ends the stream. -/
theorem State.padMark_placed {q : List Chunk} {c : Chunk} {f : Filling} {o : Nat} (hq : s.buffer.queue = q ++ [c])
    (hd : ∀ d ∈ q, d.seq ≠ c.seq) (hf : s.clip.filling = some f) (ho : c.place = some o) :
    (s.marked c.seq).padMark =
      if o + (16 + c.length) = f.placement then (s.marked c.seq).setFilling f.endStream else s.marked c.seq := by
  have hf' : (s.marked c.seq).clip.filling = some f := hf
  have hm' : (s.marked c.seq).buffer.flush = some c.seq := rfl
  have hends : (s.marked c.seq).buffer.queue.any
      (fun d => decide (d.seq = c.seq) && d.place.isSome && decide (d.streamEnd = f.placement)) = true ↔
      o + (16 + c.length) = f.placement := by
    show s.buffer.queue.any _ = true ↔ _
    rw [hq, mark_ends_stream_iff hd]
    simp [ho]
  unfold State.padMark
  rw [hf', hm']
  simp only [hends]

/-! ### FLUSH -/

/-- FLUSH, executed. -/
theorem exec_flush {effect : State → State} (h : s.executes (.flush p)) (hp : p.payload = [])
    (hb : s.received.requestFlush s.received.buffer.lastQueued = effect s.received) :
    exec (.flush p) s = .next (s.served p .command effect (.ready .ok [])).conclude :=
  exec_served (n := 0) rfl h rfl (by simp [hp]) (by rw [State.flushCommand, hb]; rfl)

/-- Settles O33: the mark is the last descriptor, and the filler follows where its chunk ends the stream. -/
theorem flushMarksLast : Obligations.FlushMarksLast := by
  intro s p h hp
  refine ⟨fun hq => exec_flush h hp ?_, fun q c hq hd hm => ⟨fun hn => exec_flush h hp ?_, fun f o hf ho =>
    ⟨fun hn => exec_flush h hp ?_, fun hb he => exec_flush h hp ?_⟩⟩⟩
  · rw [ChunkBuffer.lastQueued_nil (by exact hq)]
    rfl
  all_goals rw [State.requestFlush_last (s := s.received) hq hd hm]
  · rw [State.padMark_unplaced (s := s.received) hq hd hn]
    rfl
  · rw [State.padMark_placed (s := s.received) hq hd hf ho]
    split
    · rename_i he
      have hb := hn.resolve_right (fun hne => hne he)
      unfold Filling.endStream
      rw [if_pos hb]
      unfold State.setFilling
      rw [← hf]
      rfl
    · rfl
  · rw [State.padMark_placed (s := s.received) hq hd hf ho, if_pos he]
    unfold Filling.endStream
    rw [if_neg hb]
    rfl

/-! ### What the end of an event leaves of the standing work's outcome -/

/-- After the clip recorder's standing work only HOLD, the latency deadline and the grant are brought up to date. -/
theorem State.settle_eq (s : State) : ∃ g hold d e, s.settle = { s.settleClip with
    buffer := { s.settleClip.buffer with hold := hold, latDeadline := d, latExpired := e }
    budget := { s.settleClip.budget with grant := g } } := by
  obtain ⟨g, h, -⟩ := syncGrant_eq s.settleClip.syncBuffer
  unfold State.settle
  rw [h]
  unfold State.syncBuffer ChunkBuffer.syncLatency
  dsimp only
  split
  · exact ⟨g, _, _, _, rfl⟩
  · exact ⟨g, _, _, _, rfl⟩

/-- The outcome of the standing work in the state that the end of the event leaves. -/
theorem State.conclude_outcome (s : State) : s.conclude.clip = s.settleClip.clip ∧
    s.conclude.buffer.queue = s.settleClip.buffer.queue ∧ s.conclude.buffer.nextSeq = s.settleClip.buffer.nextSeq ∧
    s.conclude.frame.accOpen = s.settleClip.frame.accOpen ∧ s.conclude.frame.acc = s.settleClip.frame.acc ∧
    s.conclude.link.parked = s.settleClip.link.parked := by
  obtain ⟨g, hold, d, e, h⟩ := s.settle_eq
  obtain ⟨send, out, ns, packet, h'⟩ := arbitrate_frame s.settle
  unfold State.conclude
  rw [h', h]
  exact ⟨rfl, rfl, rfl, rfl, rfl, rfl⟩

/-- A request answered stays outstanding, or its answer is on its way. -/
theorem State.arbitrate_answer {s : State} {tag : Byte} {kind : RequestKind} {code : ResultCode} {data : List Byte}
    (h : ⟨tag, kind, .ready code data⟩ ∈ s.link.outstanding) :
    ⟨tag, kind, .ready code data⟩ ∈ s.arbitrate.link.outstanding ∨
      s.arbitrate.link.sending = some (answerPacket tag code data) := by
  rcases arbitrate_cases s with h' | ⟨r, rs, -, h'⟩ | ⟨r, rs, code', data', -, ho, hr, h'⟩ | ⟨e, es, -, -, h'⟩ <;> rw [h']
  · exact .inl h
  · exact .inl h
  · rw [ho, List.mem_cons] at h
    rcases h with rfl | h
    · obtain ⟨rfl, rfl⟩ : code = code' ∧ data = data' := by simpa using hr
      exact .inr rfl
    · exact .inl h
  · exact .inl h

/-- With no descriptor queued there is nothing to place. -/
theorem State.nextPlacement_of_empty (hq : s.buffer.queue = []) : s.nextPlacement = none := by
  unfold State.nextPlacement
  rw [hq]
  cases s.clip.filling <;> rfl

/-- While no close is pending no segment has drained. -/
theorem State.drained_of_open {f : Filling} (hf : s.clip.filling = some f) (hp : f.pending = none) :
    s.drained = none := by
  unfold State.drained
  simp only [hf, hp]

/-! ### CLIP_STOP -/

/-- The accumulator hands over its records where it is open and holds any, and closes. -/
theorem State.handOver_eq (s : State) : s.handOver =
    if s.frame.accOpen = true ∧ s.frame.acc ≠ [] then
      State.enqueueMotion { s with frame := { s.frame with accOpen := false, acc := [] } } s.frame.acc
    else { s with frame := { s.frame with accOpen := false, acc := [] } } := by
  unfold State.handOver FrameBuilder.closeAcc
  simp only [Bool.and_eq_true, Bool.not_eq_true', List.isEmpty_eq_false_iff, ne_eq]

theorem State.handOver_of_empty (h : s.frame.acc = []) :
    s.handOver = { s with frame := { s.frame with accOpen := false, acc := [] } } := by
  rw [State.handOver_eq, if_neg (by simp [h])]

/-- CLIP_STOP of an open clip that is not yet closing, executed. -/
theorem exec_clipStop {effect : State → State} (h : s.executes (.clipStop p)) (hp : p.payload = [])
    (hc : s.clip.state = .recording ∨ s.clip.state = .rolloverWait) (hb : s.received.beginStop = effect s.received) :
    exec (.clipStop p) s = .next (s.served p .command effect (.ready .ok [])).conclude := by
  refine exec_served (n := 0) rfl h rfl (by simp [hp]) ?_
  rw [← hb]
  have hr : s.received.clip.state = s.clip.state := rfl
  unfold State.clipStop
  rcases hc with hc | hc <;> rw [hr, hc] <;> rfl

/-- A segment that closes STOP with its queue empty: the clip is over. -/
theorem State.settleClip_stop {f : Filling} (hf : s.clip.filling = some f) (hp : f.pending = none)
    (hq : s.buffer.queue = []) (hc : s.clip.state = .closing) :
    s.settleClip = (s.closeSegment .stop).endClip .stop := by
  rw [State.settleClip_done (State.drained_of_open hf hp) (State.nextPlacement_of_empty hq)]
  unfold State.finishClose
  rw [hq, hc]
  rfl

/-- Settles O32: the hand-over, the flush request with the last descriptor, and the close of a drained segment. -/
theorem clipStop : Obligations.ClipStop := by
  intro s p h hp
  refine ⟨fun hc => exec_served (n := 0) rfl h rfl (by simp [hp]) ?_, fun hc => ?_⟩
  · have hr : s.received.clip.state = s.clip.state := rfl
    unfold State.clipStop
    rcases hc with hc | hc | hc <;> rw [hr, hc] <;> rfl
  intro closing served
  have hserved : ∀ effect : State → State, s.received.beginStop = effect s.received → served effect :=
    fun effect hb => exec_clipStop h hp hc hb
  have hempty : s.frame.acc = [] → (s.received.setClipState .closing).handOver = closing s.received :=
    fun ha => State.handOver_of_empty ha
  refine ⟨?_, fun ho ha hq hfree hflush hseq => hserved _ ?_, fun ha hq => hserved _ ?_,
    fun q c ha hq hc hd hflush => hserved _ ?_, fun f hf hpend hslot hq ha => ?_⟩
  · intro handed
    refine hserved _ ?_
    have hh : (s.received.setClipState .closing).handOver = handed s.received :=
      (s.received.setClipState .closing).handOver_eq
    show State.requestFlush (s.received.setClipState .closing).handOver _ = _
    rw [hh]
  · have hh : (s.received.setClipState .closing).handOver = (closing s.received).enqueueMotion s.frame.acc :=
      (State.handOver_eq _).trans (if_pos ⟨ho, ha⟩)
    unfold State.beginStop
    rw [hh, State.enqueueMotion_stored (s := closing s.received) hq hfree]
    refine (State.requestFlush_unplaced (q := s.buffer.queue) (c := ?c) ?queue ?seq ?flush ?place).trans ?eq
    case queue => exact rfl
    case seq => exact hseq
    case flush => exact hflush
    case place => rfl
    case eq => rfl
  · unfold State.beginStop
    rw [hempty ha]
    dsimp only
    rw [ChunkBuffer.lastQueued_nil (by exact hq)]
    rfl
  · unfold State.beginStop
    rw [hempty ha]
    exact State.requestFlush_unplaced (s := closing s.received) hq hd hflush hc
  · refine ⟨_, hserved closing ?_, ?_⟩
    · unfold State.beginStop
      rw [hempty ha]
      dsimp only
      rw [ChunkBuffer.lastQueued_nil (by exact hq)]
      rfl
    · obtain ⟨hclip, hqueue, -, hopen, hacc, -⟩ := State.conclude_outcome (s.served p .command closing (.ready .ok []))
      have hsettle := State.settleClip_stop (s := s.served p .command closing (.ready .ok [])) (f := f) hf hpend hq rfl
      rw [hsettle] at hclip hqueue hopen hacc
      unfold State.closeSegment at hclip hqueue hopen hacc
      rw [show (s.served p .command closing (.ready .ok [])).clip.filling = some f from hf] at hclip hqueue hopen hacc
      exact ⟨hopen, hacc, hqueue.trans hq, hclip⟩

/-! ### CLIP_START carried out (R90, R91) -/

/-- Settles O30: the slot that the search tries first is passed over or taken, and a clip just opened has no standing
work. -/
theorem clipStartOpens : Obligations.ClipStartOpens := by
  intro s p i b0 b1 b2 b3 m h hp h0 h1 h2 h3 hm hi hq hcard hchosen
  have hlen : p.payload.length = 5 := by simp [hp]
  have hmode : clipModeOf (leNat (slice p.payload 4 1)) = some (if m = 0 then .loop else .linear) := by
    rw [leNat_slice_one (by omega), hp, ← clipModeOf_eq hm]
    congr 1
    simp
    omega
  have hcand := hchosen.candidate
  have hstart : ∀ u : State, u.clip.state = .idle → u.card = s.card → u.clipStart p.payload =
      match u.seekSlot (if m = 0 then .loop else .linear) none 65 with
      | (s1, none) => (s1, answered .noSegment)
      | (s1, some i) => (s1.openClip (BitVec.ofNat 32 (leNat (slice p.payload 0 4)))
          (if m = 0 then .loop else .linear) i, answered .ok) := by
    intro u hu hc
    rw [← hc] at hcard
    rw [State.clipStart, if_neg (by simpa using hu), hmode]
    exact if_pos hcard
  refine ⟨fun hz => ?_, fun hz => ?_⟩
  · have hseek := State.seekSlot_unusable s.received hcand hz
    have hboth : s.received.clipStart p.payload = (s.received.markUnusable i).clipStart p.payload := by
      rw [hstart s.received hi rfl, hstart (s.received.markUnusable i) hi rfl, hseek]
    have hexec : ∀ u : State, u.executes (.clipStart p) → exec (.clipStart p) u =
        .next (((u.received.clipStart p.payload).1.join p.header.b1 .command
          (u.received.clipStart p.payload).2).conclude) :=
      fun u hu => congrArg (fun x : State => Host.Outcome.next x.conclude)
        (takeCommand_executes u (.clipStart p) p 1 5 _ hu rfl hlen)
    rw [hexec s h, hboth]
    exact (hexec (s.markUnusable i) h).symm
  · have hseek := State.seekSlot_found s.received hcand hz
    have hnum : BitVec.ofNat 32 (leNat (slice p.payload 0 4)) =
        BitVec.ofNat 32 (b0 + 256 * b1 + 65536 * b2 + 16777216 * b3) := by
      congr 1
      rw [hp]
      simp [slice, leNat]
      omega
    have hexec := exec_clipStart (ans := answered .ok) (effect := fun u => u.openClip (BitVec.ofNat 32
      (b0 + 256 * b1 + 65536 * b2 + 16777216 * b3)) (if m = 0 then .loop else .linear) i) h hlen
      (by rw [hstart s.received hi rfl, hseek, hnum])
    refine ⟨_, hexec, ?_⟩
    generalize hw : s.served p .command _ _ = w at hexec ⊢
    have hfill : w.clip.filling = some (s.received.newFilling i) := by rw [← hw]; rfl
    have hqueue : w.buffer.queue = [] := by rw [← hw]; exact hq
    have hrec : w.clip.state = .recording := by rw [← hw]; rfl
    have hsettle : w.settleClip = w := by
      rw [State.settleClip_done (State.drained_of_open hfill rfl) (State.nextPlacement_of_empty hqueue)]
      unfold State.finishClose
      rw [hrec]
      simp
    obtain ⟨c1, c2, c3, c4, c5, c6⟩ := w.conclude_outcome
    obtain ⟨d1, d2, d3, d4, d5, -, -, -, ⟨g, d6, -⟩, -⟩ := conclude_spec w
    rw [hsettle] at c1 c2 c3 c4 c5 c6
    have hout : ⟨p.header.b1, .command, .ready .ok []⟩ ∈ w.settle.link.outstanding := by
      have : w.settle.link.outstanding = w.link.outstanding := by
        obtain ⟨g, hold, d, e, hs⟩ := w.settle_eq
        rw [hs, hsettle]
      rw [this, ← hw]
      exact List.mem_append_right _ (List.mem_singleton.mpr rfl)
    refine ⟨c1.trans (by rw [← hw]; rfl), c2.trans hqueue, c3.trans (by rw [← hw]; rfl), c4.trans (by rw [← hw]; rfl),
      c5.trans (by rw [← hw]; rfl), by rw [d6, ← hw]; rfl, c6.trans (by rw [← hw]; rfl), d1.trans (by rw [← hw]; rfl),
      d2.trans (by rw [← hw]; rfl), d3.trans (by rw [← hw]; rfl), d4.trans (by rw [← hw]; rfl),
      d5.trans (by rw [← hw]; rfl), State.arbitrate_answer hout⟩

end Sys2Proof.Machine
end


section
/-! SUPPORT. Bytes laid end to end as fields of an offset, a size and a value, and the STATUS snapshot so laid out (R163,
R177); INPUT_LIMIT and LOG_CLEAR. -/
namespace Sys2Proof.Machine

/-! ### Little-endian bytes -/

@[simp] theorem length_leBytes (n v : Nat) : (leBytes n v).length = n := by
  induction n generalizing v with
  | zero => rfl
  | succ n ih => simp [leBytes, ih]

@[simp] theorem length_leSigned (n : Nat) (v : Int) : (leSigned n v).length = n := length_leBytes _ _

/-- The bytes of a value give it back modulo their range. -/
theorem leNat_leBytes (n v : Nat) : leNat (leBytes n v) = v % 256 ^ n := by
  induction n generalizing v with
  | zero => simp [leBytes, leNat, Nat.mod_one]
  | succ n ih =>
    rw [leBytes, leNat, ih, BitVec.toNat_ofNat]
    have h : v % 256 ^ (n + 1) = v % 256 + 256 * (v / 256 % 256 ^ n) := by rw [Nat.pow_succ']; exact Nat.mod_mul
    exact h.symm

/-- Only the value modulo the range of the bytes counts. -/
theorem leBytes_mod (n v : Nat) : leBytes n (v % 256 ^ n) = leBytes n v := by
  induction n generalizing v with
  | zero => rfl
  | succ n ih =>
    rw [leBytes, leBytes, Nat.pow_succ', Nat.mod_mul_right_div_self, ih]
    congr 1
    apply BitVec.eq_of_toNat_eq
    rw [BitVec.toNat_ofNat, BitVec.toNat_ofNat]
    exact Nat.mod_mod_of_dvd _ (Dvd.intro _ rfl)

/-- A natural number has the bytes that it has as a signed value. -/
theorem leBytes_eq_leSigned (n v : Nat) : leBytes n v = leSigned n (v : Int) := by
  have hmod : ((v : Int) % (2 ^ (8 * n) : Int)).toNat = v % 256 ^ n := by
    have hpow : (2 ^ (8 * n) : Int) = ((256 ^ n : Nat) : Int) := by rw [pow_mul]; norm_num
    rw [hpow, ← Int.natCast_mod, Int.toNat_natCast]
  unfold leSigned
  rw [hmod, leBytes_mod]

theorem leNat_leSigned (n : Nat) (v : Int) : (leNat (leSigned n v) : Int) = v % 256 ^ n := by
  have hpow : (2 ^ (8 * n) : Int) = 256 ^ n := by rw [pow_mul]; norm_num
  have hpos : (0 : Int) < 256 ^ n := by positivity
  have hlt : (v % 256 ^ n : Int) < 256 ^ n := Int.emod_lt_of_pos _ hpos
  have hnn : (0 : Int) ≤ v % 256 ^ n := Int.emod_nonneg _ hpos.ne'
  unfold leSigned
  rw [leNat_leBytes, hpow]
  push_cast
  rw [Int.toNat_of_nonneg hnn, Int.emod_emod_of_dvd _ dvd_rfl]

theorem replicate_zero_eq_leSigned (n : Nat) : List.replicate n (0 : Byte) = leSigned n 0 := by
  have h : leBytes n 0 = leSigned n 0 := leBytes_eq_leSigned n 0
  rw [← h]
  clear h
  induction n with
  | zero => rfl
  | succ n ih => rw [List.replicate_succ, ih]; rfl

/-- One byte ahead of others. -/
theorem cons_eq_leSigned (b : Byte) (l : List Byte) : b :: l = leSigned 1 b.toNat ++ l := by
  rw [← leBytes_eq_leSigned]
  simp [leBytes]

theorem padTo_eq (n : Nat) (bs : List Byte) : padTo n bs = bs ++ leSigned (n - bs.length) 0 := by
  rw [padTo, replicate_zero_eq_leSigned]

/-! ### Fields laid end to end -/

/-- The bytes of fields of an offset, a size and a value, laid end to end. -/
def fieldBytes (l : List (Nat × Nat × Int)) : List Byte := l.flatMap (fun x => leSigned x.2.1 x.2.2)

/-- Whether each field's offset, from `k` on, is where the field before it ends. -/
def Contiguous : Nat → List (Nat × Nat × Int) → Prop
  | _, [] => True
  | k, x :: xs => x.1 = k ∧ Contiguous (k + x.2.1) xs

theorem fieldBytes_cons (x : Nat × Nat × Int) (l : List (Nat × Nat × Int)) :
    fieldBytes (x :: l) = leSigned x.2.1 x.2.2 ++ fieldBytes l := rfl

/-- A field of contiguous ones stands at its offset in its size. -/
theorem Contiguous.field {k : Nat} {l : List (Nat × Nat × Int)} (h : Contiguous k l) {j n : Nat} {v : Int}
    (hm : (j, n, v) ∈ l) : k ≤ j ∧ ((fieldBytes l).drop (j - k)).take n = leSigned n v := by
  induction l generalizing k with
  | nil => cases hm
  | cons x xs ih =>
    obtain ⟨hx, hxs⟩ := h
    rw [fieldBytes_cons]
    rcases List.mem_cons.1 hm with rfl | hm
    · obtain rfl : j = k := hx
      simp
    · obtain ⟨hle, hfield⟩ := ih hxs hm
      refine ⟨by omega, ?_⟩
      rw [List.drop_append, length_leSigned, List.drop_eq_nil_of_le (by rw [length_leSigned]; omega), List.nil_append,
        show j - k - x.2.1 = j - (k + x.2.1) by omega, hfield]

/-! ### Codes as places in their lists (R173, R174) -/

theorem cast_toNat (b : Bool) : ((b.toNat : Nat) : Int) = if b then 1 else 0 := by cases b <;> rfl

theorem flagByte_toNat (b : Bool) : ((flagByte b).toNat : Int) = if b then 1 else 0 := by cases b <;> rfl

theorem Cadence.code_eq (x : Cadence) : (x.code : Int) = if x = .locked then 1 else 0 := by cases x <;> rfl

theorem PortState.code_eq (x : PortState) : x.code = [PortState.stopped, .init, .idle, .reading].idxOf x := by
  cases x <;> rfl

theorem ClipState.code_eq (x : ClipState) :
    x.code = [ClipState.idle, .recording, .rolloverWait, .closing, .emergency].idxOf x := by cases x <;> rfl

theorem CardState.code_eq (x : CardState) :
    x.code = [CardState.absent, .init, .ready, .sleep, .run, .recover, .yielded, .fault].idxOf x := by cases x <;> rfl

theorem Grant.code_eq (x : Grant) : x.code = [Grant.none, .pending, .held].idxOf x := by cases x <;> rfl

theorem Stage.code_eq (x : Stage) :
    x.code = [Stage.idle, .qualify, .precharge, .fast, .taper, .topOff, .full, .hold, .fault].idxOf x := by
  cases x <;> rfl

theorem chargeFaultCode_eq (x : Option ChargeFault) :
    chargeFaultCode x = [none, some ChargeFault.battery, some .timer].idxOf x := by
  rcases x with _ | x
  · rfl
  · cases x <;> rfl

theorem Zone.code_eq (x : Zone) : x.code = [Zone.cold, .cool, .normal, .warm, .hot].idxOf x := by cases x <;> rfl

theorem DieLevel.code_eq (x : DieLevel) : x.code = [DieLevel.ok, .warn, .crit].idxOf x := by cases x <;> rfl

/-! ### The commands -/

/-- Settles O38: the two commands' effects, and the snapshot as contiguous fields. -/
theorem plainCommands : Obligations.PlainCommands := by
  refine ⟨fun s p => ⟨fun a b h hp => ?_, fun h hp => ?_, fun h hp => ?_⟩, ?_⟩
  · refine exec_served (n := 2) rfl h rfl (by simp [hp]) ?_
    have hv : leNat p.payload = a.toNat + 256 * b.toNat := by simp [hp, leNat]
    rw [State.setInputLimit, hv]
    rfl
  · exact exec_served (n := 0) rfl h rfl (by simp [hp]) rfl
  · refine ⟨fun z hz => ?_, fun hz => ⟨Config.freeByte s.freeCount, ?_⟩⟩
    · refine exec_served (n := 0) rfl h rfl (by simp [hp]) ?_
      rw [State.statusCommand, State.snapshot, show s.received.charge.zone = some z from hz, ← Zone.code_eq]
      rfl
    · refine exec_served (n := 0) rfl h rfl (by simp [hp]) ?_
      rw [State.statusCommand, State.snapshot, show s.received.charge.zone = none from hz]
      rfl
  · intro s zone bit time m b c h stages g record fields
    have hlay : s.snapshotWith zone = fieldBytes fields := by
      simp only [fields, record, fieldBytes, List.flatMap_cons, List.flatMap_nil, List.cons_append, List.nil_append,
        List.append_nil, List.append_assoc, State.snapshotWith, Capture.bytes, State.imuBytes, State.motionBytes,
        Integrator.bytes, ChunkBuffer.bytes, ClipRecorder.bytes, State.cardBytes, ChargeController.bytes, Budget.bytes,
        Link.bytes, padTo_eq, List.length_append, length_leBytes, length_leSigned, List.length_cons, List.length_nil]
      simp only [leBytes_eq_leSigned, cons_eq_leSigned, flagByte_toNat, HoldCauses.code, Nat.cast_add,
        Nat.cast_mul, Nat.cast_ofNat, Cadence.code_eq, cast_toNat, PortState.code_eq, ClipState.code_eq,
        CardState.code_eq, Grant.code_eq, Stage.code_eq, chargeFaultCode_eq, DieLevel.code_eq]
      rfl
    have hcont : Contiguous 0 fields := by
      simp only [fields, record, List.cons_append, List.nil_append, Contiguous, Nat.reduceAdd, and_self]
    refine ⟨?_, fun k n v hm => ?_⟩
    · rw [hlay]
      simp only [fields, record, fieldBytes, List.cons_append, List.nil_append, List.flatMap_cons, List.flatMap_nil,
        List.length_append, length_leSigned, List.length_nil, Nat.reduceAdd]
    · have hfield := (hcont.field hm).2
      rw [hlay, ← Nat.sub_zero k, hfield, leNat_leSigned]

end Sys2Proof.Machine
end


section
/-! SUPPORT. Table loads: the words of a load, entries laid over a table's contents, and the loads of BIAS, LENS, MOUNT,
CHARGE_PROFILE, OCV and BUDGET_CFG (R22, R25, R33, R125, R145, R151, R164). -/
namespace Sys2Proof.Machine

variable {s : State} {p : Packet}

/-! ### The entries of a load (R164, R176) -/

/-- A list cut into pieces, piece by piece. -/
theorem pieces_eq (n k : Nat) (bs : List Byte) :
    pieces n k bs = (List.range k).map (fun i => (bs.drop (n * i)).take n) := by
  induction k generalizing bs with
  | zero => rfl
  | succ k ih =>
    rw [pieces, ih, List.range_succ_eq_map, List.map_cons, List.map_map]
    congr 1
    refine List.map_congr_left fun i _ => ?_
    rw [List.drop_drop, Function.comp_apply, Nat.mul_succ, Nat.add_comm]

theorem loadedInts_eq (p : Packet) : loadedInts p = (List.range p.header.entryCount).map
    (fun k => (BitVec.ofNat 32 (leNat ((p.payload.drop (4 * k)).take 4))).toInt) := by
  rw [loadedInts, pieces_eq, List.map_map]
  rfl

theorem loadFits_of {first n size entries : Nat} (hf : p.header.firstEntry = first) (hn : p.header.entryCount = n)
    (h0 : n ≠ 0) (hle : first + n ≤ entries) (hp : p.payload.length = size * n) : loadFits p entries size = true := by
  subst hf hn
  simp [loadFits, h0, hle, hp, Nat.mul_comm]

/-! ### Entries laid over a table's contents (R164) -/

theorem length_overlay {α : Type} {cur new : List α} {first : Nat} (h : first + new.length ≤ cur.length) :
    (overlay cur first new).length = cur.length := by
  simp only [overlay, List.length_append, List.length_take, List.length_drop]
  omega

/-- The entries loaded stand where they are laid, and every other entry stays. -/
theorem getElem?_overlay {α : Type} {cur new : List α} {first : Nat} (h : first + new.length ≤ cur.length) (k : Nat) :
    (overlay cur first new)[k]? = if first ≤ k ∧ k < first + new.length then new[k - first]? else cur[k]? := by
  have htake : (cur.take first).length = first := by rw [List.length_take]; omega
  unfold overlay
  rw [List.append_assoc]
  rcases Nat.lt_or_ge k first with h1 | h1
  · rw [if_neg (by omega), List.getElem?_append_left (by omega), List.getElem?_take_of_lt h1]
  · rw [List.getElem?_append_right (by omega), htake]
    rcases Nat.lt_or_ge k (first + new.length) with h2 | h2
    · rw [if_pos ⟨h1, h2⟩, List.getElem?_append_left (by omega)]
    · rw [if_neg (by omega), List.getElem?_append_right (by omega), List.getElem?_drop]
      congr 1
      omega

theorem getD_overlay {α : Type} {cur new : List α} {first : Nat} (h : first + new.length ≤ cur.length) (k : Nat) (d : α) :
    (overlay cur first new).getD k d =
      if first ≤ k ∧ k < first + new.length then new.getD (k - first) d else cur.getD k d := by
  rw [List.getD_eq_getElem?_getD, getElem?_overlay h, List.getD_eq_getElem?_getD, List.getD_eq_getElem?_getD]
  split <;> rfl

/-- A list of a known length, entry by entry. -/
theorem eq_map_getD {α : Type} {l : List α} {n : Nat} (h : l.length = n) (d : α) :
    l = (List.range n).map (fun i => l.getD i d) := by
  subst h
  refine List.ext_getElem (by simp) fun i h1 h2 => ?_
  simp [List.getElem?_eq_getElem h1]

/-! ### Fields brought into range -/

/-- A field clamped to a range without negative values, as a natural number. -/
theorem clampInt_toNat {lo hi : Int} (h0 : 0 ≤ lo) (h : lo ≤ hi) (v : Int) :
    ((clampInt lo hi v).toNat : Int) = clampInt lo hi v := by
  rw [clampInt_eq_max_min v h]
  omega

/-- The band count: the greatest power of two up to 16 that the value reaches, and 1 below 2. -/
theorem adjustBands_spec (v : Int) : ∃ e, e ≤ 4 ∧ adjustBands v = 2 ^ e ∧ (v ≤ 0 → e = 0) ∧
    (1 ≤ v → (adjustBands v : Int) ≤ v) ∧ (v < 2 * adjustBands v ∨ e = 4) := by
  unfold adjustBands
  split_ifs
  · exact ⟨0, by omega⟩
  · exact ⟨1, by omega⟩
  · exact ⟨2, by omega⟩
  · exact ⟨3, by omega⟩
  · exact ⟨4, by omega⟩

/-! ### BIAS, LENS and MOUNT -/

theorem Dual.store_eq {α : Type} (d : Dual α) (active : Bool) (v : α) :
    d.store active v = if active then ⟨d.active, some v⟩ else ⟨v, none⟩ := by
  cases active <;> rfl

/-- A list of three entries is known by its entries. -/
theorem eq_of_three {α : Type} {l : List α} {a b c : α} (h : l.length = 3) (ha : l[0]? = some a) (hb : l[1]? = some b)
    (hc : l[2]? = some c) : l = [a, b, c] := by
  obtain ⟨x, y, z, rfl⟩ := List.length_eq_three.1 h
  simp_all

/-- Settles O40: the entries loaded over the newest contents, each brought into range. -/
theorem motionTables : Obligations.MotionTables := by
  intro s p first n hf hn h0 words
  have hwords : loadedInts p = words := by rw [loadedInts_eq, hn]
  have hlen : words.length = n := by simp [words]
  refine ⟨fun h hle hp hb => ?_, fun h hle hp => ?_, fun h hle hp => ?_⟩
  · have hclamp : (words.map (clampInt (-65536) 65535)).length = n := by rw [List.length_map, hlen]
    have hfit : first + (words.map (clampInt (-65536) 65535)).length ≤ s.motion.bias.newest.length := by omega
    refine ⟨overlay s.motion.bias.newest first (words.map (clampInt (-65536) 65535)), (length_overlay hfit).trans hb,
      fun k hk => ?_, exec_loaded rfl h rfl (loadFits_of hf hn h0 hle hp) ?_⟩
    · rw [getElem?_overlay hfit, hclamp, List.getElem?_map]
    · rw [State.loadBias, hwords, hf, Dual.store_eq]
      rfl
  · have hfit : first + words.length ≤ s.motion.lens.newest.entries.length := by rw [hlen]; exact hle
    refine ⟨lensOf (overlay s.motion.lens.newest.entries first words), ?_⟩
    intro cur entry
    have hentry : ∀ k, (overlay s.motion.lens.newest.entries first words).getD k 0 = entry k := by
      intro k
      rw [getD_overlay hfit, hlen]
      rfl
    unfold lensOf lensAxisOf
    simp only [hentry]
    refine ⟨clampInt_toNat (by norm_num) (by norm_num) _, clampInt_toNat (by norm_num) (by norm_num) _, trivial, ?_,
      adjustBands_spec _, exec_loaded rfl h rfl (loadFits_of hf hn h0 hle hp) ?_⟩
    · intro a k hm
      simp only [List.mem_cons, Prod.mk.injEq, List.not_mem_nil, or_false] at hm
      rcases hm with ⟨rfl, rfl⟩ | ⟨rfl, rfl⟩ | ⟨rfl, rfl⟩ <;>
        exact ⟨clampInt_toNat (by norm_num) (by norm_num) _, clampInt_toNat (by norm_num) (by norm_num) _,
          clampInt_toNat (by norm_num) (by norm_num) _⟩
    · rw [State.loadLens, hwords, hf, Dual.store_eq]
      unfold lensOf lensAxisOf
      simp only [show s.received.motion = s.motion from rfl, show s.received.imu = s.imu from rfl, hentry]
      cases s.imu.active <;> rfl
  · intro code a b c
    have hcodes : loadedMount p =
        (List.range n).map (fun k => ((p.payload.getD (2 * k) 0).toNat, (p.payload.getD (2 * k + 1) 0).toNat)) := by
      rw [loadedMount, pieces_eq, List.map_map, hn]
      refine List.map_congr_left fun k hk => ?_
      simp [List.getD_eq_getElem?_getD]
    have hclen : (loadedMount p).length = n := by simp [hcodes]
    have hfit : first + (loadedMount p).length ≤ (mountCodes s.motion.mount.newest).length := by rw [hclen]; exact hle
    have hthree : overlay (mountCodes s.motion.mount.newest) first (loadedMount p) = [a, b, c] := by
      have hat : ∀ k (m : MountSource), (mountCodes s.motion.mount.newest)[k]? = some (m.axis, m.negative.toNat) →
          (overlay (mountCodes s.motion.mount.newest) first (loadedMount p))[k]? = some (code k m) := by
        intro k m hm
        rw [getElem?_overlay hfit, hclen]
        simp only [code]
        split
        · rw [hcodes, List.getElem?_map, List.getElem?_range (by omega)]
          rfl
        · exact hm
      exact eq_of_three (length_overlay hfit) (hat 0 _ rfl) (hat 1 _ rfl) (hat 2 _ rfl)
    have hload : s.received.loadMount p = match mountOf [a, b, c] with
        | none => (s.received, answered .badArg)
        | some v => ({ s.received with motion := { s.received.motion with
            mount := if s.imu.active then ⟨s.motion.mount.active, some v⟩ else ⟨v, none⟩ } }, answered .ok) := by
      simp only [← Dual.store_eq]
      rw [State.loadMount, hf, show s.received.motion = s.motion from rfl, hthree]
      rfl
    refine ⟨fun ha hb hc ha2 hb2 hc2 hab hac hbc => ?_, fun hbad => ?_⟩
    · refine exec_loaded rfl h rfl (loadFits_of hf hn h0 hle hp) ?_
      rw [hload, mountOf, if_pos (by simp [ha, hb, hc, ha2, hb2, hc2, hab, hac, hbc])]
      rfl
    · refine exec_loaded rfl h rfl (loadFits_of hf hn h0 hle hp) ?_
      rw [hload, mountOf, if_neg (by
        simp only [List.all_cons, List.all_nil, Bool.and_true, Bool.and_eq_true, decide_eq_true_eq]
        omega)]
      rfl

/-! ### CHARGE_PROFILE, OCV and BUDGET_CFG -/

/-- A profile's entries, each clamped to its range. -/
theorem chargeProfileOf_entries {e : List Int} (h : e.length = 23) : (chargeProfileOf e).entries =
    List.zipWith (fun r x => clampInt r.1 r.2 x) [(0, 4000), (3800, 4400), (50, 4000), (3800, 4400), (0, 4000),
      (3800, 4400), (2500, 3600), (10, 500), (1, 120), (10, 600), (10, 1000), (0, 120), (50, 400), (10, 500), (10, 1000),
      (10, 1000), (-400, 1000), (-400, 1000), (-400, 1000), (-400, 1000), (0, 100), (500, 1400), (600, 1500)] e := by
  conv_rhs => rw [eq_map_getD h 0]
  rfl

/-- A budget configuration's entries, each clamped to its range. -/
theorem budgetCfgOf_entries {e : List Int} (h : e.length = 9) : (budgetCfgOf e).entries =
    List.zipWith (fun r x => clampInt r.1 r.2 x) [(3000, 6000), (3000, 6000), (3000, 6000), (0, 1000), (0, 1000),
      (0, 1000), (100, 8000), (0, 1000), (2800, 4000)] e := by
  conv_rhs => rw [eq_map_getD h 0]
  rfl

theorem ChargeProfile.ordered_iff (v : ChargeProfile) :
    v.ordered = true ↔ v.t0 < v.t1 ∧ v.t1 < v.t2 ∧ v.t2 < v.t3 ∧ v.tWarn < v.tCrit := by
  simp [ChargeProfile.ordered, and_assoc]

theorem risesStrictly_iff (l : List Int) : risesStrictly l = true ↔ l.Pairwise (· < ·) := by
  rw [← List.isChain_iff_pairwise]
  induction l with
  | nil => simp [risesStrictly]
  | cons a l ih =>
    cases l with
    | nil => simp [risesStrictly]
    | cons b l => simp only [risesStrictly, Bool.and_eq_true, decide_eq_true_eq, List.isChain_cons_cons, ih]

/-- A stage at rest has the ceiling 0. -/
theorem ChargeController.stageCeiling_of_rest {c : ChargeController} (h : c.stage.isRest = true) : c.stageCeiling = 0 := by
  have hzero : (if c.die = .warn then truncDiv 0 2 else 0) = 0 := by split <;> rfl
  unfold ChargeController.stageCeiling
  cases hs : c.stage with
  | precharge | fast | taper | topOff => rw [hs] at h; cases h
  | idle | qualify | full | hold | fault => exact hzero

/-- HOLD entered from a charging stage with the PROFILE cause (R125, R135). -/
theorem State.profileCause_hold (h1 : s.charge.stage ≠ .idle) (h2 : s.charge.stage ≠ .fault)
    (h3 : s.charge.stage ≠ .hold) : s.profileCause = State.raise { s with
      charge := { s.charge with
        resume := .qualify, causes := { s.charge.causes with profile := true }, stage := .hold, runCount := 0
        fault := none, ceiling := 0, elapsed := if s.charge.stage = .precharge then s.charge.elapsed else 0 }
      budget := { s.budget with setpoint := 0 } }
      (.chargeState .hold none { s.charge.causes with profile := true } s.budget.readings.vbat) := by
  unfold State.profileCause
  rw [if_neg (by simp [h1, h2])]
  dsimp only
  rw [if_neg h3]
  refine (State.enterStage_ceiling _ .hold _ nofun).trans ?_
  rw [Budget.onEnter_eq, ChargeController.stageCeiling_of_rest rfl]
  rfl

/-- Settles O43: the entries laid over the contents and clamped, the order of the result judged, and its effects. -/
theorem powerTables : Obligations.PowerTables := by
  intro s p first n hf hn h0 hp words merged clamped answers
  have hwords : loadedInts p = words := by rw [loadedInts_eq, hn]
  have hlen : words.length = n := by simp [words]
  have hmerged : ∀ cur : List Int, overlay cur first words = merged cur := by
    intro cur
    rw [overlay, hlen]
  have hmlen : ∀ cur : List Int, first + n ≤ cur.length → (merged cur).length = cur.length := by
    intro cur h
    rw [← hmerged]
    exact length_overlay (by rw [hlen]; exact h)
  refine ⟨fun h hle => ?_, fun h hle hocv => ?_, fun h hle => ?_⟩
  · intro fields ranges
    have hload : s.received.loadChargeProfile p = if (chargeProfileOf (merged s.charge.profile.entries)).ordered then
        (State.profileCause { s.received with charge := { s.received.charge with
          profile := chargeProfileOf (merged s.charge.profile.entries) } }, answered .ok)
        else (s.received, answered .badArg) := by
      rw [State.loadChargeProfile, hwords, hf, hmerged]
      rfl
    refine ⟨chargeProfileOf (merged s.charge.profile.entries), chargeProfileOf_entries (hmlen _ hle), fun ho => ?_,
      fun h1 h2 h3 h4 => ?_⟩
    · refine exec_loaded rfl h rfl (loadFits_of hf hn h0 hle hp) ?_
      rw [hload, if_neg (by rw [ChargeProfile.ordered_iff]; exact ho)]
      rfl
    · intro stored held
      rw [if_pos ((ChargeProfile.ordered_iff _).mpr ⟨h1, h2, h3, h4⟩)] at hload
      have stores {effect : State → State} (he : State.profileCause { s.received with charge := { s.received.charge with
          profile := chargeProfileOf (merged s.charge.profile.entries) } } = effect s.received) : stored effect :=
        exec_loaded rfl h rfl (loadFits_of hf hn h0 hle hp) (hload.trans (by rw [he]; rfl))
      refine ⟨fun hst => stores (if_pos hst), fun hst => stores ?_, fun k1 k2 k3 => stores ?_⟩
      · exact (if_neg (by simp [State.received, hst])).trans (if_pos hst)
      · exact State.profileCause_hold k1 k2 k3
  · have hclamp : (words.map (clampInt 2500 4500)).length = n := by rw [List.length_map, hlen]
    have hfit : first + (words.map (clampInt 2500 4500)).length ≤ s.budget.ocv.length := by omega
    refine ⟨overlay s.budget.ocv first (words.map (clampInt 2500 4500)), (length_overlay hfit).trans hocv,
      fun k hk => ?_, fun hr => exec_loaded rfl h rfl (loadFits_of hf hn h0 hle hp) ?_,
      fun hr => exec_loaded rfl h rfl (loadFits_of hf hn h0 hle hp) ?_⟩
    · rw [getElem?_overlay hfit, hclamp, List.getElem?_map]
    · rw [State.loadOcv, hwords, hf]
      exact if_pos ((risesStrictly_iff _).mpr hr)
    · rw [State.loadOcv, hwords, hf]
      exact if_neg (fun k => hr ((risesStrictly_iff _).mp k))
  · intro fields ranges
    refine ⟨budgetCfgOf (merged s.budget.cfg.entries), budgetCfgOf_entries (hmlen _ hle), fun hbad =>
      exec_loaded rfl h rfl (loadFits_of hf hn h0 hle hp) ?_, fun h1 h2 => ⟨fun hc =>
      exec_loaded rfl h rfl (loadFits_of hf hn h0 hle hp) ?_, fun hc =>
      exec_loaded rfl h rfl (loadFits_of hf hn h0 hle hp) ?_⟩⟩
    all_goals rw [State.loadBudgetCfg, hwords, hf, hmerged]
    · refine if_neg ?_
      rintro ⟨h1, h2⟩
      exact hbad.elim (fun k => absurd h1 (not_lt.mpr k)) (fun k => absurd h2 (not_lt.mpr k))
    · refine (if_pos ⟨h1, h2⟩).trans ?_
      unfold Budget.setCfg
      refine congrArg (fun b => (({ s.received with budget := b } : State), answered .ok)) ?_
      exact if_pos hc
    · refine (if_pos ⟨h1, h2⟩).trans ?_
      unfold Budget.setCfg
      refine congrArg (fun b => (({ s.received with budget := b } : State), answered .ok)) ?_
      exact if_neg hc

end Sys2Proof.Machine
end


section
/-! SUPPORT. Loads of MOTION_CFG, WINDOW, CLIP_CFG and SEGMENT; loads refused, and reads (R14, R81, R83, R85, R164, R165,
R176). -/
namespace Sys2Proof.Machine

variable {s : State} {p : Packet}

/-! ### Loads refused and reads -/

/-- A request row, executed. -/
theorem exec_requested {c : Instr} {selected : Bool} {kind : RequestKind} {body : State → Executed}
    {effect : State → State} {ans : Answer} (hx : exec c s = .next (s.takeRequest p selected kind body).arbitrate)
    (h : s.executes c) (hc : c.wf = selected) (hb : body s.received = (effect s.received, ans)) :
    exec c s = .next (s.served p kind effect ans).arbitrate := by
  rw [hx, takeRequest_executes s c p selected kind body h hc, hb]
  rfl

/-- A load that does not fit its table, executed. -/
theorem exec_unfit {c : Instr} {table : Nat} {fits : Bool} {body : State → Executed}
    (hx : exec c s = .next (s.takeLoad p table fits body).arbitrate) (h : s.executes c) (hc : c.wf = p.isLoad table)
    (hf : fits = false) : exec c s = .next (s.served p .tableLoad id (.ready .badTable [])).arbitrate := by
  rw [hx, State.takeLoad, takeRequest_executes s c p _ _ _ h hc, hf]
  rfl

theorem loadFits_eq_false {entries size : Nat} (h : p.header.entryCount = 0 ∨
    entries < p.header.firstEntry + p.header.entryCount ∨ p.payload.length ≠ p.header.entryCount * size) :
    loadFits p entries size = false := by
  unfold loadFits
  rcases h with h | h | h
  · simp [h]
  · simp [Nat.not_le.mpr h]
  · simp [h]

/-- Whether a MOTION_CFG load fits, condition by condition (R14, R164). -/
theorem motionCfgFits_iff : motionCfgFits p = true ↔
    loadFits p 24 4 = true ∧ p.header.firstEntry = 0 ∧ 8 ≤ p.header.entryCount ∧
    (0 ≤ leInt32 (slice p.payload 28 4) → leInt32 (slice p.payload 28 4) ≤ 16 →
      (p.header.entryCount : Int) = 8 + leInt32 (slice p.payload 28 4)) := by
  unfold motionCfgFits
  simp only [Bool.and_eq_true, Bool.or_eq_true, Bool.not_eq_true', decide_eq_true_eq, Bool.and_eq_false_iff,
    decide_eq_false_iff_not, and_assoc]
  grind

/-- Entries that all have room are all returned. -/
theorem fitting_eq {room : Nat} {rows : List (List Byte)} (h : rows.flatten.length ≤ room) : fitting room rows = rows := by
  induction rows generalizing room with
  | nil => rfl
  | cons e es ih =>
    rw [List.flatten_cons, List.length_append] at h
    rw [fitting, if_pos (by omega), ih (by omega)]

/-- A TABLE_READ, executed. -/
theorem exec_tableRead {effect : State → State} {ans : Answer} (h : s.executes (.tableRead p))
    (hb : s.received.readTable p = (effect s.received, ans)) :
    exec (.tableRead p) s = .next (s.served p .tableRead effect ans).arbitrate :=
  exec_requested (selected := p.isKind 4) rfl h rfl hb

/-- The answer to a read of rows that all have room. -/
theorem readAnswer_eq {isFixed : Bool} {rows : List (List Byte)} {first count : Nat}
    (hin : isFixed = false ∨ first < rows.length)
    (hroom : (if count = 0 then rows.drop first else (rows.drop first).take count).flatten.length ≤ 65518) :
    readAnswer isFixed rows first count =
      .ready .ok (leBytes 2 (if count = 0 then rows.drop first else (rows.drop first).take count).length ++
        (if count = 0 then rows.drop first else (rows.drop first).take count).flatten) := by
  have hn : ¬(isFixed && decide (rows.length ≤ first)) = true := by
    rw [Bool.and_eq_true, decide_eq_true_eq]
    rintro ⟨h1, h2⟩
    rcases hin with h | h
    · simp [h1] at h
    · omega
  rw [readAnswer, if_neg hn]
  simp only [fitting_eq hroom]

theorem length_snapshotWith (s : State) (zone : Byte) : (s.snapshotWith zone).length = 240 := (plainCommands.2 s zone).1

/-- Settles O44: the conditions of the loads, and each table's rows. -/
theorem loadsRefusedAndReads : Obligations.LoadsRefusedAndReads := by
  intro s p answers first count
  refine ⟨fun h => ?_, fun c entries size hc h hbad => ?_, fun h hbad => ?_, fun h => ?_, fun h => ⟨fun hcode => ?_, ?_⟩⟩
  · exact exec_requested (selected := p.isKind 3 && !fitsTable p) (effect := id) rfl h rfl rfl
  · have hfit := loadFits_eq_false hbad
    simp only [List.mem_cons, Prod.mk.injEq, List.not_mem_nil, or_false] at hc
    rcases hc with ⟨rfl, rfl, rfl⟩ | ⟨rfl, rfl, rfl⟩ | ⟨rfl, rfl, rfl⟩ | ⟨rfl, rfl, rfl⟩ | ⟨rfl, rfl, rfl⟩ |
      ⟨rfl, rfl, rfl⟩ | ⟨rfl, rfl, rfl⟩ | ⟨rfl, rfl, rfl⟩
    · exact exec_unfit (table := 1) rfl h rfl hfit
    · exact exec_unfit (table := 3) rfl h rfl hfit
    · exact exec_unfit (table := 4) rfl h rfl hfit
    · exact exec_unfit (table := 5) rfl h rfl hfit
    · exact exec_unfit (table := 7) rfl h rfl hfit
    · exact exec_unfit (table := 8) rfl h rfl hfit
    · exact exec_unfit (table := 9) rfl h rfl hfit
    · exact exec_unfit (table := 10) rfl h rfl hfit
  · refine exec_unfit (table := 2) rfl h rfl ?_
    unfold segmentFits
    rcases hbad with hb | hb | hb
    · simp [show p.header.entryCount = 0 from hb]
    · simp [Nat.not_le.mpr (show 64 < p.header.entryCount from hb)]
    · simp [show p.payload.length ≠ p.header.entryCount * 6 from hb]
  · intro pairs hbad
    refine exec_unfit (table := 6) rfl h rfl ?_
    rw [Bool.eq_false_iff, ne_eq, motionCfgFits_iff]
    rintro ⟨hfit, h0, h8, hpairs⟩
    have hfits : ¬loadFits p 24 4 = false := by rw [hfit]; simp
    rcases hbad with hb | hb | hb | hb | ⟨hb1, hb2, hb3⟩
    · exact hb h0
    · exact absurd h8 (Nat.not_le.mpr hb)
    · exact hfits (loadFits_eq_false (.inr (.inl hb)))
    · exact hfits (loadFits_eq_false (.inr (.inr hb)))
    · exact hb3 (hpairs hb1 hb2)
  · refine exec_tableRead (effect := id) h ?_
    have hn13 : p.header.tableCode ≠ 13 := by omega
    have hrows : s.received.tableRows p.header.tableCode [] = none := by
      unfold State.tableRows
      split <;> first | omega | rfl
    rw [State.readTable]
    simp only [if_neg hn13, hrows]
    rfl
  · intro words mount lens axis cfg clip budget read
    have hread : ∀ isFixed rows, p.header.tableCode ≠ 13 →
        s.received.tableRows p.header.tableCode [] = some (isFixed, rows) → read isFixed rows := by
      intro isFixed rows hn13 hrows
      have hb : s.received.readTable p = (s.received, readAnswer isFixed rows first count) := by
        rw [State.readTable]
        simp only [if_neg hn13, hrows]
        rfl
      refine ⟨fun hfix hle => exec_tableRead (effect := id) h (hb.trans ?_), fun hin hroom =>
        exec_tableRead (effect := id) h (hb.trans ?_)⟩
      · rw [readAnswer, if_pos (by simp [hfix, hle])]
        rfl
      · rw [readAnswer_eq hin hroom]
        rfl
    refine ⟨fun hc => ?_, fun hc => ?_, fun hc => ?_, fun hc => ?_, fun hc => ?_, fun hc => ?_, fun hc => ?_, fun hc => ?_,
      fun hc => ?_, fun hc => ?_, fun hc => ?_, fun hc => ?_, fun hc => ?_⟩
    case refine_13 =>
      intro snapshot
      have hrows : ∀ snap : List Byte, s.received.tableRows p.header.tableCode snap = some (true, [snap]) := by
        intro snap; rw [hc]; rfl
      have hb : ∀ (u : State) (snap : List Byte), s.received.snapshot = (u, snap) →
          s.received.readTable p = (u, readAnswer true [snap] first count) := by
        intro u snap hs
        rw [State.readTable]
        simp only [if_pos hc, hs, hrows]
        rfl
      refine ⟨fun z hz => ?_, fun hz => ⟨Config.freeByte s.freeCount, ?_⟩⟩
      · have hsnap : s.received.snapshot = (s.received, snapshot (BitVec.ofNat 8
            ([Zone.cold, .cool, .normal, .warm, .hot].idxOf z))) := by
          rw [State.snapshot, show s.received.charge.zone = some z from hz, ← Zone.code_eq]
          rfl
        refine ⟨fun _ hle => exec_tableRead (effect := id) h ((hb _ _ hsnap).trans ?_), fun hin hroom =>
          exec_tableRead (effect := id) h ((hb _ _ hsnap).trans ?_)⟩
        · rw [readAnswer, if_pos (by simpa using hle)]
          rfl
        · rw [readAnswer_eq hin hroom]
          rfl
      · have hsnap : s.received.snapshot = ({ s.received with freeCount := s.freeCount + 1 },
            snapshot (Config.freeByte s.freeCount)) := by
          rw [State.snapshot, show s.received.charge.zone = none from hz]
          rfl
        refine exec_tableRead (effect := fun s' => { s' with freeCount := s.freeCount + 1 }) h ((hb _ _ hsnap).trans ?_)
        by_cases h0 : first = 0
        · have hwanted : (if count = 0 then [snapshot (Config.freeByte s.freeCount)].drop first
              else ([snapshot (Config.freeByte s.freeCount)].drop first).take count) =
              [snapshot (Config.freeByte s.freeCount)] := by
            rw [h0]
            split
            · rfl
            · exact List.take_of_length_le (by rw [List.drop_zero, List.length_singleton]; omega)
          rw [readAnswer_eq (.inr (by simp [h0])) (by
            rw [hwanted, List.flatten_cons, List.flatten_nil, List.append_nil]
            exact (length_snapshotWith _ _).le.trans (by norm_num)), hwanted, if_pos h0]
          simp
        · rw [readAnswer, if_pos (by simp; omega), if_neg h0]
          rfl
    all_goals refine hread _ _ (by omega) ?_
    all_goals rw [hc]
    case refine_2 => exact congrArg (fun r => some (true, r)) (by rw [ClipRecorder.numbered_eq, List.map_map]; rfl)
    case refine_7 =>
      refine congrArg (fun r => some (true, intEntries r)) ?_
      unfold ClipCfg.entries
      rw [cast_toNat]
      rfl
    case refine_4 =>
      refine congrArg (fun r => some (true, r)) (List.map_congr_left fun m _ => ?_)
      rfl
    all_goals rfl

end Sys2Proof.Machine
end


section
/-! SUPPORT. Loads of MOTION_CFG, WINDOW, CLIP_CFG and SEGMENT (R14, R81, R83, R85). -/
namespace Sys2Proof.Machine

variable {s : State} {p : Packet}

/-! ### WINDOW (R83) -/

theorem leNat_lt (bs : List Byte) : leNat bs < 256 ^ bs.length := by
  induction bs with
  | nil => simp [leNat]
  | cons b bs ih =>
    rw [leNat, List.length_cons, Nat.pow_succ]
    have := b.isLt
    omega

theorem leNat_word_lt (bs : List Byte) : leNat (bs.take 4) < 2 ^ 32 :=
  (leNat_lt _).trans_le (Nat.pow_le_pow_right (n := 256) (j := 4) (by norm_num) (List.length_take_le _ _))

/-- One word of the window map replaced, bit by bit. -/
theorem getLsbD_setWindowWord (w : BitVec 32768) {j v i : Nat} (hv : v < 2 ^ 32) (hi : i < 32768) :
    (setWindowWord w j v).getLsbD i = if i / 32 = j then v.testBit (i % 32) else w.getLsbD i := by
  have hmask : (4294967295 : Nat).testBit (i - 32 * j) = decide (i - 32 * j < 32) :=
    Nat.testBit_two_pow_sub_one 32 _
  unfold setWindowWord
  simp only [BitVec.getLsbD_or, BitVec.getLsbD_and, BitVec.getLsbD_not, BitVec.getLsbD_shiftLeft, BitVec.getLsbD_ofNat,
    hi, decide_true, Bool.true_and, hmask, show i - 32 * j < 32768 by omega]
  by_cases hlt : i < 32 * j
  · rw [if_neg (by omega)]
    simp [hlt]
  · by_cases hin : i - 32 * j < 32
    · rw [if_pos (by omega), show i % 32 = i - 32 * j by omega]
      simp [hlt, hin]
    · rw [if_neg (by omega), Nat.testBit_eq_false_of_lt
        (lt_of_lt_of_le hv (Nat.pow_le_pow_right (by norm_num) (by omega)))]
      simp [hin]

/-- Words written from word j on, bit by bit. -/
theorem getLsbD_setWindowWords (w : BitVec 32768) {j i : Nat} {vs : List Nat} (hv : ∀ v ∈ vs, v < 2 ^ 32)
    (hi : i < 32768) : (setWindowWords w j vs).getLsbD i =
      if j ≤ i / 32 ∧ i / 32 < j + vs.length then (vs.getD (i / 32 - j) 0).testBit (i % 32) else w.getLsbD i := by
  induction vs generalizing w j with
  | nil => rw [if_neg (by simp)]; rfl
  | cons v vs ih =>
    rw [setWindowWords, ih _ (fun x hx => hv x (List.mem_cons_of_mem _ hx)),
      getLsbD_setWindowWord w (hv v List.mem_cons_self) hi, List.length_cons]
    by_cases hj : i / 32 = j
    · rw [if_neg (by omega), if_pos hj, if_pos (by omega), hj, Nat.sub_self]
      rfl
    · by_cases hin : j + 1 ≤ i / 32 ∧ i / 32 < j + 1 + vs.length
      · rw [if_pos hin, if_pos (by omega), show i / 32 - j = (i / 32 - (j + 1)) + 1 by omega]
        rfl
      · rw [if_neg hin, if_neg hj, if_neg (by omega)]

theorem loadedWords_eq (p : Packet) : loadedWords p =
    (List.range p.header.entryCount).map (fun k => leNat ((p.payload.drop (4 * k)).take 4)) := by
  rw [loadedWords, pieces_eq, List.map_map]
  rfl

theorem getD_map_range {α : Type} {f : Nat → α} {n k : Nat} (d : α) (h : k < n) : ((List.range n).map f).getD k d = f k := by
  rw [List.getD_eq_getElem?_getD, List.getElem?_map, List.getElem?_range h]
  rfl

/-! ### MOTION_CFG (R14) -/

theorem loadedPairs_eq (p : Packet) : loadedPairs p = ((List.range p.header.entryCount).drop 8).map
    (fun k => (p.payload.getD (4 * k) 0, p.payload.getD (4 * k + 1) 0)) := by
  rw [loadedPairs, pieces_eq, ← List.map_drop, List.map_map]
  refine List.map_congr_left fun k _ => ?_
  simp [List.getD_eq_getElem?_getD]

theorem adjustRate_eq (v : Int) :
    (adjustRate v : Int) = if v < 2000 then 1000 else if v < 4000 then 2000 else 4000 := by
  unfold adjustRate
  split_ifs <;> rfl

/-- Settles O41: the fields brought into range, and the tests in their order. -/
theorem sensorAndClipTables : Obligations.SensorAndClipTables := by
  refine ⟨fun s p n hn h0 hp => ?_, fun s p first n h hf hn h0 hle hp => ?_⟩
  · intro words pairs answers
    have hwords : loadedInts p = words := by rw [loadedInts_eq, hn]
    have hpairs : loadedPairs p = pairs := by rw [loadedPairs_eq, hn]
    refine ⟨fun h hf h8 h24 => ?_, fun h hle => ⟨fun hc => ?_, fun hc => ?_⟩⟩
    · have hcount : leInt32 (slice p.payload 28 4) = words.getD 7 0 := by
        rw [getD_map_range 0 (by omega)]
        rfl
      have hfits : (0 ≤ words.getD 7 0 → words.getD 7 0 ≤ 16 → (n : Int) = 8 + words.getD 7 0) →
          motionCfgFits p = true := by
        intro hk
        rw [motionCfgFits_iff, hcount, hn]
        exact ⟨loadFits_of hf hn h0 (by omega) hp, hf, h8, hk⟩
      have hfield : ∀ k, k < 8 → ((loadedInts p).take 8).getD k 0 = words.getD k 0 := by
        intro k hk
        rw [hwords, List.getD_eq_getElem?_getD, List.getElem?_take_of_lt hk, ← List.getD_eq_getElem?_getD]
      have hload : s.received.loadMotionCfg p = if s.imu.active then (s.received, answered .busy)
          else if words.getD 7 0 < 0 ∨ 16 < words.getD 7 0 ∨ pairs.any (fun x => decide (127 < x.1.toNat)) then
            (s.received, answered .badArg)
          else ({ s.received with imu := { s.received.imu with
            cfg := motionCfgOf ((loadedInts p).take 8) pairs } }, answered .ok) := by
        rw [State.loadMotionCfg, hfield 7 (by omega), hpairs]
        rfl
      have hany : pairs.any (fun x => decide (127 < x.1.toNat)) = true ↔ ∃ q ∈ pairs, 127 < q.1.toNat := by simp
      refine ⟨fun hbad ha => ?_, fun hk => ⟨fun ha => ?_, fun ha hbad => ?_, fun ha hok => ?_⟩⟩
      · refine exec_loaded (effect := id) rfl h rfl (hfits fun h1 h2 => ?_) ?_
        · exact absurd hbad (by omega)
        · rw [hload, ha, if_neg (by simp), if_pos (hbad.imp_right .inl)]
          rfl
      · refine exec_loaded (effect := id) rfl h rfl (hfits fun _ _ => hk) ?_
        rw [hload, if_pos ha]
        rfl
      · refine exec_loaded (effect := id) rfl h rfl (hfits fun _ _ => hk) ?_
        rw [hload, ha, if_neg (by simp), if_pos (.inr (.inr (hany.mpr hbad)))]
        rfl
      · refine ⟨motionCfgOf ((loadedInts p).take 8) pairs, ?_⟩
        have hrange : ¬(words.getD 7 0 < 0 ∨ 16 < words.getD 7 0 ∨
            pairs.any (fun x => decide (127 < x.1.toNat)) = true) := by
          rw [hany]
          rintro (hb | hb | ⟨q, hq, hb⟩)
          · omega
          · omega
          · exact absurd (hok q hq) (by omega)
        unfold motionCfgOf
        simp only [hfield 0 (by omega), hfield 1 (by omega), hfield 2 (by omega), hfield 3 (by omega), hfield 4 (by omega),
          hfield 5 (by omega), hfield 6 (by omega)]
        refine ⟨adjustRate_eq _, clampInt_toNat (by norm_num) (by norm_num) _, clampInt_toNat (by norm_num) (by norm_num) _,
          clampInt_toNat (by norm_num) (by norm_num) _, clampInt_toNat (by norm_num) (by norm_num) _,
          clampInt_toNat (by norm_num) (by norm_num) _, clampInt_toNat (by norm_num) (by norm_num) _, trivial,
          exec_loaded rfl h rfl (hfits fun _ _ => hk) ?_⟩
        rw [hload, ha, if_neg (by simp), if_neg hrange]
        unfold motionCfgOf
        simp only [hfield 0 (by omega), hfield 1 (by omega), hfield 2 (by omega), hfield 3 (by omega), hfield 4 (by omega),
          hfield 5 (by omega), hfield 6 (by omega)]
        rfl
    · refine exec_loaded (effect := id) rfl h rfl (loadFits_of rfl hn h0 hle hp) ?_
      exact if_neg hc
    · refine ⟨setWindowWords s.clip.window p.header.firstEntry (loadedWords p), fun i hi => ?_,
        exec_loaded rfl h rfl (loadFits_of rfl hn h0 hle hp) (if_pos hc)⟩
      rw [loadedWords_eq, hn, getLsbD_setWindowWords _ ?_ hi, List.length_map, List.length_range]
      · split
        · rw [getD_map_range 0 (by omega)]
        · rfl
      · intro v hv
        obtain ⟨k, -, rfl⟩ := List.mem_map.1 hv
        exact leNat_word_lt _
  · intro cur entry limit answers
    have hlen : (loadedInts p).length = n := by rw [loadedInts_eq, List.length_map, List.length_range, hn]
    have hfit : first + (loadedInts p).length ≤ cur.entries.length := by rw [hlen]; exact hle
    have hentry : ∀ k, (overlay cur.entries first (loadedInts p)).getD k 0 = entry k := by
      intro k
      rw [getD_overlay hfit, hlen]
      simp only [entry]
      split
      · rw [loadedInts_eq, getD_map_range 0 (by omega)]
      · unfold ClipCfg.entries
        rw [cast_toNat]
    have hload : s.received.loadClipCfg p = if s.clip.state ≠ .idle then (s.received, answered .busy)
        else if entry 1 < 0 ∨ 3 < entry 1 then (s.received, answered .badArg)
        else if (clipCfgOf (overlay cur.entries first (loadedInts p))).protectLimit < s.clip.protectedCount then
          (s.received, answered .limit)
        else ({ s.received with clip := { s.received.clip with
          cfg := clipCfgOf (overlay cur.entries first (loadedInts p)) } }, answered .ok) := by
      rw [State.loadClipCfg, hf, ← hentry]
      rfl
    have hlimit : ((clipCfgOf (overlay cur.entries first (loadedInts p))).protectLimit : Int) = limit := by
      unfold clipCfgOf
      simp only [hentry]
      exact clampInt_toNat (by norm_num) (by norm_num) _
    have fits := loadFits_of hf hn h0 hle hp
    refine ⟨fun hc => exec_loaded (effect := id) rfl h rfl fits ?_, fun hc => ⟨fun hbad =>
      exec_loaded (effect := id) rfl h rfl fits ?_, fun h1 h2 h3 => exec_loaded (effect := id) rfl h rfl fits ?_,
      fun h1 h2 h3 => ?_⟩⟩
    · exact hload.trans (if_pos hc)
    · rw [hload, if_neg (by simp [hc]), if_pos hbad]
      rfl
    · rw [hload, if_neg (by simp [hc]), if_neg (by omega), if_pos (by omega)]
      rfl
    · refine ⟨clipCfgOf (overlay cur.entries first (loadedInts p)), ?_⟩
      have hexec : exec (.clipCfgLoad p) s = .next (State.arbitrate (s.served p .tableLoad (fun s' => { s' with
          clip := { s'.clip with cfg := clipCfgOf (overlay cur.entries first (loadedInts p)) } }) (.ready .ok []))) := by
        refine exec_loaded rfl h rfl fits ?_
        rw [hload, if_neg (by simp [hc]), if_neg (by omega), if_neg (by omega)]
        rfl
      refine ⟨?_, ?_, ?_, hlimit, ?_, ?_, ?_, ?_, ?_, ?sleep, ?_, hexec⟩
      · show (BitVec.ofInt 32 ((overlay cur.entries first (loadedInts p)).getD 0 0)).toNat = _
        rw [hentry]
        simp only [entry]
        by_cases h0 : first = 0
        · rw [if_pos (by omega), if_pos h0, BitVec.ofInt_toInt, BitVec.toNat_ofNat, h0]
          exact Nat.mod_eq_of_lt (leNat_word_lt _)
        · rw [if_neg (by omega), if_neg h0]
          exact BitVec.toNat_ofNat _ _
      · show (((overlay cur.entries first (loadedInts p)).getD 1 0).toNat : Int) = _
        rw [hentry, Int.toNat_of_nonneg h1]
      all_goals unfold clipCfgOf
      all_goals simp only [hentry]
      case sleep => exact decide_eq_true_iff
      all_goals exact clampInt_toNat (by norm_num) (by norm_num) _

/-! ### SEGMENT (R85) -/

theorem leNat_slice_two {bs : List Byte} {i : Nat} (h : i + 1 < bs.length) :
    leNat (slice bs i 2) = (bs.getD i 0).toNat + 256 * (bs.getD (i + 1) 0).toNat := by
  have hs : slice bs i 2 = [bs.getD i 0, bs.getD (i + 1) 0] := by
    unfold slice
    rw [List.drop_eq_getElem_cons (show i < bs.length by omega), List.take_succ_cons, List.drop_eq_getElem_cons h,
      List.take_succ_cons, List.take_zero]
    simp [List.getD_eq_getElem?_getD, List.getElem?_eq_getElem h, List.getElem?_eq_getElem (show i < bs.length by omega)]
  rw [hs]
  simp [leNat]

/-- The entries of a SEGMENT load, byte by byte (R176). -/
theorem segmentEntries_eq {n : Nat} (hn : p.header.entryCount = n) (hp : p.payload.length = 6 * n) :
    segmentEntries p = (List.range n).map (fun k => ⟨(p.payload.getD (6 * k + 0) 0).toNat,
      (p.payload.getD (6 * k + 2) 0).toNat + 256 * (p.payload.getD (6 * k + 3) 0).toNat,
      (p.payload.getD (6 * k + 4) 0).toNat + 256 * (p.payload.getD (6 * k + 5) 0).toNat⟩) := by
  rw [segmentEntries, pieces_eq, List.map_map, hn]
  refine List.map_congr_left fun k hk => ?_
  rw [List.mem_range] at hk
  have hlen : ((p.payload.drop (6 * k)).take 6).length = 6 := by simp; omega
  have hbyte : ∀ j, j < 6 → ((p.payload.drop (6 * k)).take 6).getD j 0 = p.payload.getD (6 * k + j) 0 := by
    intro j hj
    simp [List.getD_eq_getElem?_getD, List.getElem?_take_of_lt hj]
  rw [Function.comp_apply, leNat_slice_one (by omega), leNat_slice_two (by omega), leNat_slice_two (by omega),
    hbyte 0 (by omega), hbyte 2 (by omega), hbyte 3 (by omega), hbyte 4 (by omega), hbyte 5 (by omega)]

theorem overlaps_iff (a ca b cb : Nat) : overlaps a ca b cb = true ↔ a < b + cb ∧ b < a + ca := by simp [overlaps]

theorem ClipRecorder.slotBusy_iff (c : ClipRecorder) (e : SegmentEntry) : c.slotBusy e = true ↔
    e.slot < 64 ∧ (c.slot e.slot).state ≠ .empty ∧ (c.slot e.slot).state ≠ .free := by
  simp [ClipRecorder.slotBusy, and_assoc]

theorem State.extentWritable_iff (s : State) (e : SegmentEntry) : s.extentWritable e = true ↔
    ∀ g, e.first ≤ g → g < e.first + e.count → s.granuleWritable g = true := by
  unfold State.extentWritable
  rw [List.all_eq_true]
  refine ⟨fun h g h1 h2 => ?_, fun h j hj => h _ (Nat.le_add_right _ _) (by rw [List.mem_range] at hj; omega)⟩
  rw [show g = e.first + (g - e.first) by omega]
  exact h _ (List.mem_range.mpr (by omega))

theorem ClipRecorder.extentTaken_iff (c : ClipRecorder) (e : SegmentEntry) : c.extentTaken e = true ↔
    ∃ j, j < 64 ∧ j ≠ e.slot ∧ (c.slot j).state ≠ .empty ∧
      (e.first < (c.slot j).first + (c.slot j).count ∧ (c.slot j).first < e.first + e.count) := by
  unfold ClipRecorder.extentTaken
  rw [c.numbered_eq, List.any_map, List.any_eq_true]
  simp only [List.mem_range, Function.comp_apply, Bool.and_eq_true, decide_eq_true_eq, overlaps_iff, and_assoc]

/-- The checks of one entry on its own, condition by condition (R85). -/
theorem State.segmentEntryOk_iff (s : State) (e : SegmentEntry) : s.segmentEntryOk e = true ↔
    e.slot < 64 ∧ 1 ≤ e.count ∧ e.count ≤ 4096 ∧ e.first + e.count ≤ 32768 ∧
    (∀ g, e.first ≤ g → g < e.first + e.count → s.granuleWritable g = true) ∧
    ¬∃ j, j < 64 ∧ j ≠ e.slot ∧ (s.clip.slot j).state ≠ .empty ∧
      (e.first < (s.clip.slot j).first + (s.clip.slot j).count ∧ (s.clip.slot j).first < e.first + e.count) := by
  unfold State.segmentEntryOk
  simp only [Bool.and_eq_true, Bool.not_eq_true', decide_eq_true_eq, s.extentWritable_iff, ← Bool.not_eq_true,
    s.clip.extentTaken_iff, and_assoc]

/-- Whether two entries of a load name different slots and share no granule. -/
def SegmentEntry.Apart (a b : SegmentEntry) : Prop :=
  b.slot ≠ a.slot ∧ ¬(a.first < b.first + b.count ∧ b.first < a.first + a.count)

theorem SegmentEntry.Apart.symm {a b : SegmentEntry} (h : a.Apart b) : b.Apart a := ⟨h.1.symm, fun k => h.2 k.symm⟩

theorem entriesApart_iff (es : List SegmentEntry) : entriesApart es = true ↔ es.Pairwise SegmentEntry.Apart := by
  induction es with
  | nil => simp [entriesApart]
  | cons e es ih =>
    simp only [entriesApart, Bool.and_eq_true, List.all_eq_true, decide_eq_true_eq, Bool.not_eq_true', ih,
      List.pairwise_cons, SegmentEntry.Apart, ← Bool.not_eq_true, overlaps_iff]

/-- Entries numbered in order are pairwise apart exactly where any two of them are. -/
theorem pairwise_apart_iff {n : Nat} (f : Nat → SegmentEntry) : ((List.range n).map f).Pairwise SegmentEntry.Apart ↔
    ∀ k < n, ∀ j < n, j ≠ k → (f k).Apart (f j) := by
  rw [List.pairwise_map, List.pairwise_iff_getElem]
  simp only [List.length_range, List.getElem_range]
  refine ⟨fun h k hk j hj hne => ?_, fun h i j hi hj hlt => h i hi j hj (by omega)⟩
  rcases Nat.lt_or_gt_of_ne hne with hlt | hlt
  · exact (h j k hj hk hlt).symm
  · exact h k j hk hj hlt

/-- The slots after entries that name different slots of the table: each slot named is FREE on its new extent, and no
other changes. -/
theorem foldl_loadSlot {es : List SegmentEntry} (hes : es.Pairwise SegmentEntry.Apart) (hin : ∀ e ∈ es, e.slot < 64)
    (c : ClipRecorder) :
    (∀ e ∈ es, (es.foldl ClipRecorder.loadSlot c).slot e.slot =
      { (c.slot e.slot).freed with first := e.first, count := e.count }) ∧
    (∀ i, (∀ e ∈ es, e.slot ≠ i) → (es.foldl ClipRecorder.loadSlot c).slot i = c.slot i) ∧
    es.foldl ClipRecorder.loadSlot c = { c with slots := (es.foldl ClipRecorder.loadSlot c).slots } := by
  induction es generalizing c with
  | nil => exact ⟨by simp, fun i _ => rfl, rfl⟩
  | cons e es ih =>
    rw [List.pairwise_cons] at hes
    obtain ⟨hhead, htail⟩ := hes
    obtain ⟨h1, h2, h3⟩ := ih htail (fun x hx => hin x (List.mem_cons_of_mem _ hx)) (c.loadSlot e)
    have hload : ∀ i, (c.loadSlot e).slot i = if e.slot = i ∧ i < 64 then
        { (c.slot e.slot).freed with first := e.first, count := e.count } else c.slot i :=
      fun i => c.setSlot_slot e.slot i _
    rw [List.foldl_cons]
    refine ⟨fun x hx => ?_, fun i hi => ?_, h3⟩
    · rcases List.mem_cons.1 hx with rfl | hx
      · rw [h2 _ (fun y hy => (hhead y hy).1), hload, if_pos ⟨rfl, hin _ List.mem_cons_self⟩]
      · rw [h1 x hx, hload, if_neg (fun k => (hhead x hx).1 k.1.symm)]
    · rw [h2 i (fun y hy => hi y (List.mem_cons_of_mem _ hy)), hload,
        if_neg (fun k => hi e List.mem_cons_self k.1)]

theorem ClipRecorder.getElem?_slots (c : ClipRecorder) {i : Nat} (h : i < 64) : c.slots[i]? = some (c.slot i) := by
  simp [ClipRecorder.slot, h]

/-- Settles O42: the load's tests entry by entry, and the slots that it leaves. -/
theorem segmentLoad : Obligations.SegmentLoad := by
  intro s p n h hn h1 h64 hp byte slot first count x shares busy bad answers
  have hfit : segmentFits p = true := by simp [segmentFits, hn, hp, h64, Nat.mul_comm]; omega
  let entry : Nat → SegmentEntry := fun k => ⟨slot k, first k, count k⟩
  have hes : segmentEntries p = (List.range n).map entry := segmentEntries_eq hn hp
  have hbusy : (segmentEntries p).any s.clip.slotBusy = true ↔ busy := by
    rw [hes, List.any_map, List.any_eq_true]
    simp only [List.mem_range, Function.comp_apply, ClipRecorder.slotBusy_iff]
    rfl
  have hok : ((segmentEntries p).all s.segmentEntryOk && entriesApart (segmentEntries p)) = true ↔ ¬bad := by
    rw [hes, Bool.and_eq_true, List.all_map, List.all_eq_true, entriesApart_iff, pairwise_apart_iff]
    simp only [List.mem_range, Function.comp_apply, State.segmentEntryOk_iff]
    constructor
    · rintro ⟨hown, hpairs⟩ ⟨k, hk, hk'⟩
      obtain ⟨o1, o2, o3, o4, o5, o6⟩ := hown k hk
      rcases hk' with b | b | b | b | ⟨g, b1, b2, b3⟩ | b | ⟨j, hj, hne, b⟩
      · exact absurd o1 (Nat.not_lt.mpr b)
      · exact absurd o2 (Nat.not_le.mpr (Nat.lt_one_iff.mpr b))
      · exact absurd o3 (Nat.not_le.mpr b)
      · exact absurd o4 (Nat.not_le.mpr b)
      · exact Bool.noConfusion ((o5 g b1 b2).symm.trans b3)
      · exact o6 b
      · exact b.elim (hpairs k hk j hj hne).1 (hpairs k hk j hj hne).2
    · intro hb
      refine ⟨fun k hk => ⟨?_, ?_, ?_, ?_, fun g g1 g2 => ?_, fun o => ?_⟩, fun k hk j hj hne => ⟨fun o => ?_, fun o => ?_⟩⟩
      · exact Nat.not_le.mp fun o => hb ⟨k, hk, .inl o⟩
      · exact Nat.one_le_iff_ne_zero.mpr fun o => hb ⟨k, hk, .inr (.inl o)⟩
      · exact Nat.not_lt.mp fun o => hb ⟨k, hk, .inr (.inr (.inl o))⟩
      · exact Nat.not_lt.mp fun o => hb ⟨k, hk, .inr (.inr (.inr (.inl o)))⟩
      · exact Bool.not_eq_false _ ▸ fun o => hb ⟨k, hk, .inr (.inr (.inr (.inr (.inl ⟨g, g1, g2, o⟩))))⟩
      · exact hb ⟨k, hk, .inr (.inr (.inr (.inr (.inr (.inl o)))))⟩
      · exact hb ⟨k, hk, .inr (.inr (.inr (.inr (.inr (.inr ⟨j, hj, hne, .inl o⟩)))))⟩
      · exact hb ⟨k, hk, .inr (.inr (.inr (.inr (.inr (.inr ⟨j, hj, hne, .inr o⟩)))))⟩
  have hload : s.received.loadSegments p = if (segmentEntries p).any s.clip.slotBusy then (s.received, answered .busy)
      else if (segmentEntries p).all s.segmentEntryOk && entriesApart (segmentEntries p) then
        ({ s.received with clip := (segmentEntries p).foldl ClipRecorder.loadSlot s.clip }, answered .ok)
      else (s.received, answered .badArg) := rfl
  refine ⟨fun hb => exec_loaded (effect := id) rfl h rfl hfit ?_, fun hb hbad =>
    exec_loaded (effect := id) rfl h rfl hfit ?_, fun hb hbad => ?_⟩
  · exact hload.trans (if_pos (hbusy.mpr hb))
  · rw [hload, if_neg (fun k => hb (hbusy.mp k)), if_neg (fun k => hok.mp k hbad)]
    rfl
  · obtain ⟨hall, happart⟩ := Bool.and_eq_true_iff.mp (hok.mpr hbad)
    rw [entriesApart_iff] at happart
    have hin : ∀ e ∈ segmentEntries p, e.slot < 64 :=
      fun e he => ((s.segmentEntryOk_iff e).mp (List.all_eq_true.mp hall e he)).1
    have hmem : ∀ k, k < n → entry k ∈ segmentEntries p :=
      fun k hk => hes ▸ List.mem_map_of_mem (List.mem_range.mpr hk)
    obtain ⟨hnamed, hother, hslots⟩ := foldl_loadSlot happart hin s.clip
    refine ⟨((segmentEntries p).foldl ClipRecorder.loadSlot s.clip).slots, fun k hk => ?_, fun i hi hne => ?_,
      exec_loaded rfl h rfl hfit ?_⟩
    · rw [ClipRecorder.getElem?_slots _ (hin _ (hmem k hk)), hnamed _ (hmem k hk)]
      rfl
    · rw [ClipRecorder.getElem?_slots _ hi, ClipRecorder.getElem?_slots _ hi, hother i]
      intro e he
      rw [hes, List.mem_map] at he
      obtain ⟨k, hk, rfl⟩ := he
      exact hne k (List.mem_range.mp hk)
    · rw [hload, if_neg (fun k => hb (hbusy.mp k)), if_pos (hok.mpr hbad)]
      exact congrArg (fun c => (({ s.received with clip := c } : State), answered .ok)) hslots

end Sys2Proof.Machine
end


section
/-! SUPPORT. The CLAIM and CDET lines, an identification's answers, and RUN entered (R103–R107, R114, R118, R119). -/
namespace Sys2Proof.Machine

variable {s : State}

/-! ### CLAIM, CDET and an insertion -/

/-- A card yielded: what the run was at its CLAIM goes into the notice alone (R118). -/
theorem State.yieldCard_withRun (s : State) (x : CardState) (bus : Option CardCommand) (run : Option Run) (g : Grant) :
    (s.withRun x bus run g).yieldCard = State.raise { s with
      budget := { s.budget with grant := .none }
      card := { s.card with
        bus := none, run := none, ident := none, state := .yielded, leftAsleep := decide (x = .sleep) } }
      (.cardTaken x ((s.clip.filling.map Filling.front).getD 0)) := rfl

/-- A run opened where the segment has a block to write, block by block (R107). -/
theorem State.openRun_eq {f : Filling} {addr : Nat} (hf : s.clip.filling = some f)
    (ha : s.blockAddress f.front = some addr) (hl : 1 ≤ s.runLength f) : s.openRun = { s with card := { s.card with
      run := some { slot := f.slot, first := f.front, addr := addr, count := s.runLength f, acked := 0, attempts := 0,
                    after := .leave, awaitHold := false }
      bus := some { op := .openRun addr (s.runLength f), deadline := later s.now 50000 } } } := by
  unfold State.openRun
  rw [hf]
  simp only [ha, hl, decide_true]
  rfl

/-- The grant held, the card READY or SLEEP and nothing in flight: a grant waits to be entered on. -/
theorem State.runGranted_iff (s : State) : s.runGranted = true ↔
    s.budget.grant = .held ∧ (s.card.state = .ready ∨ s.card.state = .sleep) ∧ s.card.bus = none := by
  simp [State.runGranted, and_assoc]

/-- Settles O45: the effects of the lines, case by case. -/
theorem claimAndInsertion : Obligations.ClaimAndInsertion := by
  intro s idle beginInit taken
  refine ⟨fun hc => ?_, fun hc => ?_, fun hc hy => ?_, fun hc => ?_, fun level => ⟨fun hl => ?_, fun hl => ?_⟩,
    fun d hpin hpres hdue => ⟨fun ht => ?_, fun ht => ?_⟩⟩
  · have hexec : exec .claimAssert s = .next
        ((State.enterGranted { s with pins := { s.pins with claim := true } }).yieldCard).conclude :=
      congrArg Host.Outcome.next (if_neg (by simp [hc]))
    have htaken : ∀ {x : CardState} {bus : Option CardCommand} {run : Option Run} {g : Grant},
        State.enterGranted { s with pins := { s.pins with claim := true } } =
          State.withRun { s with pins := { s.pins with claim := true } } x bus run g → taken x := by
      intro x bus run g he
      rw [he, State.yieldCard_withRun] at hexec
      exact hexec
    have henter : s.runGranted = true → State.enterGranted { s with pins := { s.pins with claim := true } } =
        State.enterRunState { s with pins := { s.pins with claim := true } } := fun hg => if_pos hg
    refine ⟨fun hg => ?_, fun hg hs => ?_, fun f addr hg hr hf ha hl => ?_⟩
    · exact htaken (x := s.card.state) (bus := s.card.bus) (run := s.card.run) (g := s.budget.grant)
        (State.enterGranted_of_not hg)
    · exact htaken (bus := some { op := .wake, deadline := later s.now 5000 }) (run := s.card.run) (g := s.budget.grant)
        ((henter hg).trans (if_pos hs))
    · have hopen := State.openRun_eq
        (s := State.setCardState { s with pins := { s.pins with claim := true } } .run) hf ha hl
      have hne : ¬s.card.state = .sleep := by simp [hr]
      exact htaken (g := s.budget.grant) ((henter hg).trans ((if_neg hne).trans hopen))
  · exact congrArg Host.Outcome.next (if_pos hc)
  · intro released
    have hexec : exec .claimRelease s =
        .next (State.takeBack { s with pins := { s.pins with claim := false } }).conclude :=
      congrArg Host.Outcome.next ((if_pos hc).trans (if_pos hy))
    refine ⟨fun hp => ?_, fun hp ha => ?_, fun hp ha => ?_⟩
    · exact hexec.trans (congrArg (fun u : State => Host.Outcome.next u.conclude) (if_neg (by simp [hp])))
    · refine hexec.trans (congrArg (fun u : State => Host.Outcome.next u.conclude) ((if_pos hp).trans ?_))
      unfold State.beginInit
      rw [show s.card.leftAsleep = false from ha]
      rfl
    · refine hexec.trans (congrArg (fun u : State => Host.Outcome.next u.conclude) ((if_pos hp).trans ?_))
      unfold State.beginInit
      rw [show s.card.leftAsleep = true from ha]
      rfl
  · exact congrArg Host.Outcome.next (if_neg (by simp [hc]))
  · exact congrArg Host.Outcome.next (if_pos hl)
  · exact congrArg Host.Outcome.next (if_neg hl)
  · exact congrArg Host.Outcome.next (if_neg (by simp [hdue, ht]))
  · refine congrArg Host.Outcome.next ((if_pos (by simp [hpin, hpres, hdue, ht])).trans (congrArg State.conclude ?_))
    by_cases habs : s.card.state = .absent
    · simp only [if_pos habs]
      rfl
    · simp only [if_neg habs]
      rfl

/-! ### An identification's answers -/

/-- An answer that comes after the operation's time counts for nothing (R103). -/
theorem State.awaited_late {op : CardOp} {d : Time} (hb : s.card.bus = some { op := op, deadline := d })
    (ht : atOrAfter d s.now = false) : s.awaited = none := by
  simp [State.awaited, hb, ht]

/-- The card READY, with SLEEP sent in PARK (R105, R123). -/
theorem State.becomeReady_eq (s : State) : s.becomeReady = { s with card := { s.card with
    ident := none, state := .ready
    bus := if s.link.parked then some { op := .sleep, deadline := later s.now 50000 } else none } } := by
  have hp : ((State.clearBus { s with card := { s.card with ident := none } }).setCardState .ready).link.parked =
      s.link.parked := rfl
  unfold State.becomeReady
  simp only [hp]
  split <;> rfl

/-- A try that fails, and the third one (R105, R114, R115). -/
theorem State.tryFails_again {i : Identification} (h : i.attempt < 3) : s.tryFails i = { s with card := { s.card with
    ident := some { i with attempt := i.attempt + 1, capacity := none }
    bus := some { op := .identify, deadline := later s.now 50000 } } } :=
  if_neg (Nat.not_le.mpr h)

theorem State.tryFails_last {i : Identification} (h : 3 ≤ i.attempt) : s.tryFails i =
    (State.clipLost { s with
      budget := { s.budget with grant := .none }
      card := { s.card with state := .fault, bus := none, run := none, ident := none } }).logError .initFailed 0 none 3 :=
  if_pos h

/-- The judgement of a try whose capacity is known. -/
theorem State.judgeTry_eq {i : Identification} {cap : Word32} (hi : s.card.ident = some i) (hc : i.capacity = some cap)
    (ready : Bool) : s.judgeTry ready =
      if ready = false ∨ i.origin = .recovery ∧ cap ≠ s.card.capacity then s.tryFails i
      else if i.origin = .recovery then s.becomeReady else s.initSucceeds i cap := by
  unfold State.judgeTry
  rw [hi]
  cases ready with
  | false => simp
  | true =>
    simp only [hc]
    by_cases ho : i.origin = .recovery
    · by_cases he : cap = s.card.capacity <;> simp [ho, he]
    · simp [ho]

/-- Settles O47: the answers in time and late, and the judgement of a try. -/
theorem identificationAnswers : Obligations.IdentificationAnswers := by
  intro s i d op hi hb inTime sent
  refine ⟨fun ht cap ready => ⟨?_, ?_⟩, fun ht ho cap => ⟨fun hz => ?_, fun hz => ?_⟩, fun ht ho cap hcap =>
    ⟨fun hgood => ?_, fun ready hbad => ⟨fun hn => ?_, fun hn => ?_⟩⟩⟩
  · refine congrArg Host.Outcome.next ?_
    rw [State.onIdentifyResponse, State.awaited_late hb ht]
  · refine congrArg Host.Outcome.next ?_
    rw [State.onCardStatusResponse, State.awaited_late hb ht]
  · refine congrArg Host.Outcome.next ?_
    rw [State.onIdentifyResponse, State.awaited_eq hb ht, ho]
    exact if_pos hz
  · refine congrArg Host.Outcome.next ?_
    rw [State.onIdentifyResponse, State.awaited_eq hb ht, ho]
    refine (if_neg hz).trans (congrArg State.conclude ?_)
    unfold State.noteCapacity
    rw [hi]
    rfl
  all_goals
    refine congrArg Host.Outcome.next ?_
    rw [State.onCardStatusResponse, State.awaited_eq hb ht, ho]
    refine congrArg State.conclude ((State.judgeTry_eq (s := s.clearBus) hi hcap _).trans ?_)
  · rw [if_neg (by
      rintro (h | ⟨h1, h2⟩)
      · cases h
      · exact hgood.elim (· h1) h2)]
    by_cases hrec : i.origin = .recovery
    · have hc := hgood.resolve_left (not_not.mpr hrec)
      rw [if_pos hrec, State.becomeReady_eq, hrec, hc]
      rfl
    · rw [if_neg hrec, State.initSucceeds, State.becomeReady_eq]
      congr 1
      unfold CardController.identified
      rw [if_neg hrec]
      by_cases hins : i.origin = .insertion
      · rw [if_pos hins, if_pos hins, if_pos hins]
        rfl
      · rw [if_neg hins, if_neg hins, if_neg hins]
        rfl
  · exact (if_pos hbad).trans ((State.tryFails_again hn).trans rfl)
  · exact (if_pos hbad).trans ((State.tryFails_last hn).trans rfl)

/-! ### RUN entered -/

/-- Settles O48: WAKE, OPEN_RUN, or the run left at once. -/
theorem cardEntersRun : Obligations.CardEntersRun := by
  have hnot : ∀ s : State, s.budget.grant ≠ .held → exec .enterRun s = .next s :=
    fun s hg => congrArg Host.Outcome.next (if_neg fun k => hg ((State.runGranted_iff s).mp k).1)
  have henter : ∀ s : State, s.budget.grant = .held → s.card.state = .ready → s.card.bus = none →
      exec .enterRun s = .next (s.setCardState .run).openRun.conclude := by
    intro s hg hr hb
    refine congrArg Host.Outcome.next ((if_pos ((State.runGranted_iff s).mpr ⟨hg, .inl hr, hb⟩)).trans
      (congrArg State.conclude (if_neg ?_)))
    simp [hr]
  have hwake : ∀ (s : State) (d : Time), s.card.bus = some { op := .wake, deadline := d } → atOrAfter d s.now = true →
      exec .wakeAck s = .next s.wakeDone.conclude := by
    intro s d hb ht
    refine congrArg Host.Outcome.next ?_
    rw [State.onWakeAck, State.awaited_eq hb ht]
  refine ⟨hnot, fun s hg hs hb => ?_, fun s f j o left hf hloc => ?_, fun s hf => ?_, fun s d hb ht hi => ?_,
    fun s d hb ht => ?_⟩
  · exact congrArg Host.Outcome.next ((if_pos ((State.runGranted_iff s).mpr ⟨hg, .inr hs, hb⟩)).trans
      (congrArg State.conclude (if_pos hs)))
  · intro size addr count opened hcount
    have haddr : ∀ u : State, u.clip = s.clip → u.blockAddress f.front = some addr := by
      intro u hu
      unfold State.blockAddress
      rw [hu, hf]
      simp only [hloc]
      rfl
    have hlen : ∀ u : State, u.buffer = s.buffer → u.runLength f = count := by
      intro u hu
      unfold State.runLength
      rw [hu, hloc]
      rfl
    have hopen : ∀ u : State, u.clip = s.clip → u.buffer = s.buffer → u.openRun = { u with card := { u.card with
        run := some { slot := f.slot, first := f.front, addr := addr, count := count, acked := 0, attempts := 0,
                      after := .leave, awaitHold := false }
        bus := some { op := .openRun addr count, deadline := later u.now 50000 } } } := by
      intro u hc hbuf
      rw [State.openRun_eq (hc ▸ hf) (haddr u hc) ((hlen u hbuf).symm ▸ hcount), hlen u hbuf]
    refine ⟨fun hg hr hb => ?_, fun d hb ht hi hr => ?_⟩
    · rw [henter s hg hr hb, hopen (s.setCardState .run) rfl rfl]
      rfl
    · rw [hwake s d hb ht, State.wakeDone, if_neg (by simp [hi]), hopen s.clearBus rfl rfl]
      refine congrArg (fun u : State => Host.Outcome.next u.conclude) ?_
      rw [← hr]
      rfl
  · intro sleeps left
    have hleave : ∀ u : State, u.clip.filling = none → u.openRun = u.leaveRun := by
      intro u hu
      unfold State.openRun
      rw [hu]
    have hbus : ∀ t : Time, (if s.sleepAllowed = true then some (CardCommand.mk .sleep t) else none) =
        if sleeps then some (CardCommand.mk .sleep t) else none :=
      fun t => if_congr s.sleepAllowed_iff rfl rfl
    refine ⟨fun hg hr hb => ?_, fun d hb ht hi => ?_⟩
    · rw [henter s hg hr hb, hleave (s.setCardState .run) hf, State.leaveRun_eq]
      refine congrArg (fun u : State => Host.Outcome.next u.conclude) ?_
      exact congrArg (fun b => ({ s with
        budget := { s.budget with grant := .none }
        card := { s.card with run := none, state := .ready, bus := b } } : State)) (hbus _)
    · rw [hwake s d hb ht, State.wakeDone, if_neg (by simp [hi]), hleave s.clearBus hf, State.leaveRun_eq]
      refine congrArg (fun u : State => Host.Outcome.next u.conclude) ?_
      exact congrArg (fun b => ({ s with
        budget := { s.budget with grant := .none }
        card := { s.card with run := none, state := .ready, bus := b } } : State)) (hbus _)
  · rw [hwake s d hb ht, State.wakeDone, if_pos (Option.isSome_iff_ne_none.mpr hi)]
    rfl
  · refine congrArg Host.Outcome.next ?_
    rw [State.onSleepAck, State.awaited_eq hb ht]
    rfl

end Sys2Proof.Machine
end


section
/-! SUPPORT. The card's loss: an open clip ended with it, the log entry, and a settled removal (R101, R116, R122). -/
namespace Sys2Proof.Machine

variable {s : State}

/-! ### The end of an event in IDLE -/

/-- In IDLE there is no standing work, whatever segment is recorded as FILLING. -/
theorem State.settleClip_of_idle (h : s.clip.state = .idle) : s.settleClip = s := by
  have hd : s.drained = none := by
    unfold State.drained
    split
    · rfl
    · split
      · rfl
      · simp [h]
  have hn : s.nextPlacement = none := by
    unfold State.nextPlacement
    split
    · simp [h, ClipState.isOpen]
    · rfl
  rw [State.settleClip_done hd hn]
  unfold State.finishClose
  simp [h]

/-- With no grant asked or given and the card neither READY nor in SLEEP, none is asked for. -/
theorem State.syncGrant_none (hg : s.budget.grant = .none) (h1 : s.card.state ≠ .ready) (h2 : s.card.state ≠ .sleep) :
    s.syncGrant = s := by
  unfold State.syncGrant
  rw [hg]
  simp [State.wantsGrant, h1, h2]

/-- A notice that is raised waits, whatever other kinds are raised behind it. -/
theorem mem_noticeAdd_of_ne {ns : List NoticeEntry} {n m : Notice} (hk : n.kind ≠ m.kind)
    (h : ∃ e ∈ ns, e.notice = n) : ∃ e ∈ noticeAdd ns m, e.notice = n := by
  obtain ⟨e, he, rfl⟩ := h
  refine ⟨e, ?_, rfl⟩
  unfold noticeAdd
  split
  · exact List.mem_map.mpr ⟨e, he, if_neg hk⟩
  · exact List.mem_append_left _ he

/-- A notice that waits is told: it goes on waiting, or its packet is being sent. -/
theorem arbitrate_told {n : Notice} (h : ∃ e ∈ s.link.notices, e.notice = n) :
    (∃ e ∈ s.arbitrate.link.notices, e.notice = n) ∨
      ∃ k, s.arbitrate.link.sending = some (noticePacket ⟨k, n⟩) := by
  obtain ⟨e, he, rfl⟩ := h
  exact (arbitrate_notice_kept he).imp (fun h => ⟨e, h, rfl⟩) (fun h => ⟨e.count, h⟩)

/-! ### The clip and the log -/

/-- Every descriptor discarded (R71). -/
theorem ChunkBuffer.discardAll_eq (b : ChunkBuffer) : b.discardAll = { b with
    queue := [], flush := none, free := b.free ++ b.queue.flatMap Chunk.pages
    discarded := b.discarded + BitVec.ofNat 32 b.queue.length } := by
  unfold ChunkBuffer.discardAll ChunkBuffer.discardWhere
  rw [ChunkBuffer.clearFlush_eq]
  have hnone : b.queue.filter (fun _ => !true) = [] := by simp
  have hall : b.queue.filter (fun _ => true) = b.queue := by simp
  simp only [hnone, hall]
  cases b.flush <;> rfl

theorem State.clipLost_of_idle (h : s.clip.state = .idle) : s.clipLost = s := by
  unfold State.clipLost
  rw [h]
  rfl

/-- An open clip ends with the card: its segment INTERRUPTED, its queue discarded (R101). -/
theorem State.clipLost_of_open (h : s.clip.state ≠ .idle) : s.clipLost = State.raise { s with
    buffer := s.buffer.discardAll
    frame := { s.frame with accOpen := false, acc := [] }
    clip := { s.clip.interrupted s.now with state := .idle, filling := none } }
    (.clipEnded s.clip.clipNumber .cardAbsent) := by
  have hopen : s.clip.state.isOpen = true := by
    cases hs : s.clip.state with
    | idle => exact absurd hs h
    | recording | rolloverWait | closing | emergency => rfl
  unfold State.clipLost
  rw [if_pos hopen]
  unfold State.interruptSlot ClipRecorder.interrupted
  cases hf : s.clip.filling <;> rfl

/-- An entry of the log, with its CARD_ERROR (R116). -/
theorem State.logError_eq (s : State) (kind : LogKind) (addr : Nat) (slot : Option Nat) (attempts : Nat) :
    s.logError kind addr slot attempts = State.raise { s with card := { s.card with
      logSeq := s.card.logSeq + 1
      log := (if s.card.log.length < 32 then s.card.log else s.card.log.drop 1) ++ [{
        seq := s.card.logSeq + 1, kind := kind, addr := addr, slot := slot, attempts := attempts, time := s.now }]
      overflow := if s.card.log.length < 32 then s.card.overflow else s.card.overflow + 1 } }
      (.cardError kind (s.card.logSeq + 1)) := by
  unfold State.logError CardController.logAdd
  dsimp only
  split <;> rfl

/-! ### A removal before ENTER_RUN (R150) -/

theorem State.leaveRun_setPresence (s : State) (b : Bool) : (s.setPresence b).leaveRun = s.leaveRun.setPresence b := by
  rw [State.leaveRun_eq, State.leaveRun_eq]
  rfl

theorem State.openRun_setPresence (s : State) (b : Bool) : (s.setPresence b).openRun = s.openRun.setPresence b := by
  have hleave := s.leaveRun_setPresence b
  cases hf : s.clip.filling with
  | none =>
    have h : ∀ u : State, u.clip = s.clip → u.openRun = u.leaveRun := by
      intro u hu
      unfold State.openRun
      rw [hu, hf]
    rw [h (s.setPresence b) rfl, h s rfl, hleave]
  | some f =>
    by_cases hopen : ∃ addr, s.blockAddress f.front = some addr ∧ 1 ≤ s.runLength f
    · obtain ⟨addr, ha, hl⟩ := hopen
      rw [State.openRun_eq (s := s.setPresence b) hf ha hl, State.openRun_eq hf ha hl]
      rfl
    · have h : ∀ u : State, u.clip = s.clip → u.buffer = s.buffer → u.openRun = u.leaveRun := by
        intro u hu hb
        have ha : u.blockAddress f.front = s.blockAddress f.front := by unfold State.blockAddress; rw [hu]
        have hl : u.runLength f = s.runLength f := by unfold State.runLength; rw [hb]
        unfold State.openRun
        rw [hu, hf]
        simp only [ha, hl]
        split
        · rename_i addr h1 h2
          exact absurd ⟨addr, h1, by simpa using h2⟩ hopen
        · rfl
      rw [h (s.setPresence b) rfl rfl, h s rfl rfl, hleave]

/-- Whether the presence has been taken up makes no difference to a run that is entered. -/
theorem State.enterGranted_setPresence (s : State) (b : Bool) :
    (s.setPresence b).enterGranted = s.enterGranted.setPresence b := by
  unfold State.enterGranted
  rw [show (s.setPresence b).runGranted = s.runGranted from rfl]
  split
  · unfold State.enterRunState
    rw [show (s.setPresence b).card.state = s.card.state from rfl]
    dsimp only
    split
    · rfl
    · exact (s.setCardState .run).openRun_setPresence b
  · rfl

/-- What entering on a grant leaves: all but the card's run; it neither enters nor leaves the states beyond RUN. -/
theorem State.enterGranted_spec (s : State) : ∃ x bus run g, s.enterGranted = s.withRun x bus run g ∧
    (x = .init ↔ s.card.state = .init) ∧ (x = .recover ↔ s.card.state = .recover) ∧
    (x = .yielded ↔ s.card.state = .yielded) := by
  cases hg : s.runGranted with
  | false => exact ⟨s.card.state, s.card.bus, s.card.run, s.budget.grant, s.enterGranted_of_not hg, by simp⟩
  | true =>
    obtain ⟨x, bus, run, g, hx, he⟩ := State.enterGranted_withRun hg
    refine ⟨x, bus, run, g, he, ?_⟩
    rcases hx with rfl | rfl <;> rcases State.runGranted_state hg with hs | hs <;> simp [hs]

/-! ### The entry of a removal (R116, R122) -/

/-- The CARD_REMOVED entry: its address and slot, and the free choice made for a run that has ended. -/
theorem State.logRemoval_eq (s : State) : ∃ addr slot fc,
    s.logRemoval = State.logError { s with freeCount := fc } .cardRemoved addr slot 1 ∧
    (s.card.state ≠ .run ∨ s.card.run = none → addr = 0 ∧ slot = none) ∧
    (∀ r, s.card.state = .run → s.card.run = some r → slot = s.loggedSlot r.slot ∧
      (r.acked < r.count → (∀ c, s.card.bus = some c → c.op ≠ .closeRun) → addr = r.addr + r.acked)) := by
  unfold State.logRemoval
  split
  · rename_i hrun
    unfold State.withRunBlock
    cases hr : s.card.run with
    | none => exact ⟨0, none, s.freeCount, rfl, fun _ => ⟨rfl, rfl⟩, by simp⟩
    | some r =>
      dsimp only
      split
      · rename_i hend
        refine ⟨_, _, _, rfl, by simp [hrun], ?_⟩
        rintro r' - hr'
        obtain rfl : r = r' := by simpa using hr'
        refine ⟨rfl, fun h1 h2 => ?_⟩
        simp only [State.runEnded, Bool.or_eq_true, Bool.and_eq_true, decide_eq_true_eq, Option.any_eq_true] at hend
        rcases hend with h | ⟨-, c, hc, hop⟩
        · omega
        · exact absurd hop (h2 c hc)
      · refine ⟨_, _, s.freeCount, rfl, by simp [hrun], ?_⟩
        rintro r' - hr'
        obtain rfl : r = r' := by simpa using hr'
        exact ⟨rfl, fun _ _ => rfl⟩
  · rename_i hrun
    exact ⟨0, none, s.freeCount, rfl, fun _ => ⟨rfl, rfl⟩, fun r h => absurd h hrun⟩

/-- Whether a notice waits to be told. -/
def State.Tells (s : State) (n : Notice) : Prop := ∃ e ∈ s.link.notices, e.notice = n

theorem State.tells_raise (s : State) (n : Notice) : (s.raise n).Tells n := mem_noticeAdd s.link.notices n

theorem State.Tells.raise {n m : Notice} (hk : n.kind ≠ m.kind) (h : s.Tells n) : (s.raise m).Tells n :=
  mem_noticeAdd_of_ne hk h

theorem State.removalLogged_iff (s : State) : s.removalLogged = true ↔
    s.card.state = .run ∨ s.card.state = .init ∨ s.card.state = .recover ∨ s.clip.state ≠ .idle := by
  have hopen : s.clip.state.isOpen = true ↔ s.clip.state ≠ .idle := by
    cases s.clip.state <;> simp [ClipState.isOpen]
  simp only [State.removalLogged, Bool.or_eq_true, decide_eq_true_eq, hopen, or_assoc]

/-- A removal up to the clip's end: the work abandoned, the card gone, the entry made where something was lost. -/
structure State.Removed (u A : State) : Prop where
  clip : A.clip = u.clip
  buffer : A.buffer = u.buffer
  frame : A.frame = u.frame
  now : A.now = u.now
  grant : A.budget.grant = .none
  idle : A.card.bus = none ∧ A.card.run = none ∧ A.card.ident = none
  gone : A.card.capacity = 0 ∧ A.card.recovery = 0
  state : A.card.state = if u.card.state = .yielded then .yielded else .absent
  kept : A.card.present = u.card.present ∧ A.card.settleDue = u.card.settleDue ∧ A.card.badList = u.card.badList
  tells : ∀ n : Notice, n.kind ≠ .cardError → u.Tells n → A.Tells n
  unlogged : u.removalLogged = false → A.card.logSeq = u.card.logSeq ∧ A.card.log = u.card.log
  logged : u.removalLogged = true → A.card.logSeq = u.card.logSeq + 1 ∧
    A.Tells (.cardError .cardRemoved (u.card.logSeq + 1)) ∧
    ∃ e, A.card.log.getLast? = some e ∧ e.seq = u.card.logSeq + 1 ∧ e.kind = .cardRemoved ∧ e.attempts = 1 ∧
      e.time = u.now ∧ (u.card.state ≠ .run ∨ u.card.run = none → e.addr = 0 ∧ e.slot = none) ∧
      (∀ r, u.card.state = .run → u.card.run = some r → e.slot = u.loggedSlot r.slot ∧
        (r.acked < r.count → (∀ c, u.card.bus = some c → c.op ≠ .closeRun) → e.addr = r.addr + r.acked))

theorem State.removeCard_eq (u : State) : ∃ A, u.Removed A ∧ u.removeCard = A.clipLost := by
  refine ⟨_, ?_, rfl⟩
  cases hl : u.removalLogged with
  | false => exact ⟨rfl, rfl, rfl, rfl, rfl, ⟨rfl, rfl, rfl⟩, ⟨rfl, rfl⟩, rfl, ⟨rfl, rfl, rfl⟩, fun n _ h => h,
      fun _ => ⟨rfl, rfl⟩, by simp [hl]⟩
  | true =>
    obtain ⟨addr, slot, fc, he, hnone, hrun⟩ := u.logRemoval_eq
    simp only [if_true, he, State.logError_eq]
    refine ⟨rfl, rfl, rfl, rfl, rfl, ⟨rfl, rfl, rfl⟩, ⟨rfl, rfl⟩, rfl, ⟨rfl, rfl, rfl⟩, fun n hk h => ?_, by simp [hl],
      fun _ => ⟨rfl, ?_, ?_⟩⟩
    · exact mem_noticeAdd_of_ne hk h
    · exact mem_noticeAdd u.link.notices _
    · exact ⟨_, List.getLast?_concat .., rfl, rfl, rfl, rfl, hnone, hrun⟩

/-- The clip's end with the card (R101): what it tells, and what it leaves of the clip. -/
theorem State.clipLost_tells {n : Notice} (hk : n.kind ≠ .clipEnded) (h : s.Tells n) : s.clipLost.Tells n := by
  by_cases hc : s.clip.state = .idle
  · rwa [State.clipLost_of_idle hc]
  · rw [State.clipLost_of_open hc]
    exact State.Tells.raise hk h

theorem State.clipLost_idle (s : State) : s.clipLost.clip.state = .idle ∧ s.clipLost.budget = s.budget := by
  by_cases hc : s.clip.state = .idle
  · rw [State.clipLost_of_idle hc]
    exact ⟨hc, rfl⟩
  · rw [State.clipLost_of_open hc]
    exact ⟨rfl, rfl⟩

/-- Settles O46: the removal as `State.Removed` and the clip's end after it, which the end of the event adds nothing to. -/
theorem cardRemoval : Obligations.CardRemoval := by
  refine ⟨fun s d hpin hpres hdue ht => ?_, fun u => ⟨fun h => State.clipLost_of_idle h, fun h => ?_⟩,
    State.logError_eq⟩
  · obtain ⟨x, bus, run, g, hu, hinit, hrec, hyield⟩ := s.enterGranted_spec
    obtain ⟨A, hA, hremove⟩ := (s.enterGranted.setPresence false).removeCard_eq
    have hexec : exec .cardRemoval s = .next A.clipLost.conclude := by
      refine congrArg Host.Outcome.next ((if_pos (by simp [hpin, hpres, hdue, ht])).trans ?_)
      rw [State.enterGranted_setPresence, hremove]
    have hclipA : A.clip = s.clip := by rw [hA.clip, hu]; rfl
    have hbufA : A.buffer = s.buffer := by rw [hA.buffer, hu]; rfl
    have hnowA : A.now = s.now := by rw [hA.now, hu]; rfl
    obtain ⟨hidle, hbud⟩ := A.clipLost_idle
    have hsettle := State.settleClip_of_idle hidle
    obtain ⟨c1, c2, -, c4, -, -⟩ := A.clipLost.conclude_outcome
    rw [hsettle] at c1 c2 c4
    obtain ⟨-, -, -, hcard, -⟩ := conclude_spec A.clipLost
    rw [State.clipLost_card] at hcard
    have hstate : A.card.state = if s.card.state = .yielded then .yielded else .absent := by
      rw [hA.state, hu]
      exact if_congr hyield rfl rfl
    have hgone : A.card.state ≠ .ready ∧ A.card.state ≠ .sleep := by rw [hstate]; split <;> simp
    have hsync : A.clipLost.settle = A.clipLost.syncBuffer := by
      show A.clipLost.settleClip.syncBuffer.syncGrant = _
      rw [hsettle]
      refine State.syncGrant_none ?_ ?_ ?_
      · exact (congrArg Budget.grant hbud).trans hA.grant
      · exact fun h => hgone.1 (A.clipLost_card ▸ h)
      · exact fun h => hgone.2 (A.clipLost_card ▸ h)
    have htold : ∀ n, A.clipLost.Tells n → (∃ e ∈ A.clipLost.conclude.link.notices, e.notice = n) ∨
        ∃ k, A.clipLost.conclude.link.sending = some (noticePacket ⟨k, n⟩) := by
      intro n hn
      unfold State.conclude
      rw [hsync]
      exact arbitrate_told hn
    have hlost : (s.enterGranted.setPresence false).removalLogged = true ↔ s.enterGranted.card.state = .run ∨
        s.card.state = .init ∨ s.card.state = .recover ∨ s.clip.state ≠ .idle := by
      rw [State.removalLogged_iff, hu, ← hinit, ← hrec]
      rfl
    have hopen (h : s.clip.state ≠ .idle) := State.clipLost_of_open (s := A) (by rw [hclipA]; exact h)
    refine ⟨_, hexec, ?_, ?_, by rw [hcard]; exact hA.idle.1, by rw [hcard]; exact hA.idle.2.1,
      by rw [hcard]; exact hA.idle.2.2, by rw [hcard]; exact hA.gone.1, by rw [hcard]; exact hA.gone.2, ?_, ?_,
      by rw [hcard]; exact hstate, ?_, ?_, fun h => ?_, fun f h hf => ?_, fun h => ?_⟩
    · rw [hcard, hA.kept.1]
      rfl
    · rw [hcard, hA.kept.2.1]
      rfl
    · rw [hcard, hA.kept.2.2, hu]
      rfl
    · rw [show A.clipLost.conclude.budget = A.clipLost.budget by
        unfold State.conclude; rw [arbitrate_budget, hsync]; rfl, hbud]
      exact hA.grant
    · intro u told lost
      refine ⟨fun hg => State.enterGranted_of_not hg, ?_, fun h => ?_, fun h => ?_, fun h => ?_⟩
      · refine htold _ (State.clipLost_tells (by simp [Notice.kind]) (hA.tells _ (by simp [Notice.kind]) ?_))
        have htell := State.tells_raise { s.enterGranted with card := { s.enterGranted.card with
          present := false, settleDue := none } } (.cardPresence false s.enterGranted.now)
        have hnow : s.enterGranted.now = s.now := by rw [hu]; rfl
        rw [hnow] at htell
        rw [State.setPresence, hnow]
        exact htell
      · refine htold _ ?_
        rw [hopen h, ← hclipA]
        exact State.tells_raise _ _
      · rw [hcard]
        obtain ⟨h1, h2⟩ := hA.unlogged (by rw [← Bool.not_eq_true, hlost]; exact h)
        rw [h1, h2, hu]
        exact ⟨rfl, rfl⟩
      · obtain ⟨h1, h2, e, h3, h4, h5, h6, h7, h8, h9⟩ := hA.logged (hlost.mpr h)
        have hseq : (s.enterGranted.setPresence false).card.logSeq = s.card.logSeq := by rw [hu]; rfl
        have hnow : (s.enterGranted.setPresence false).now = s.now := by rw [hu]; rfl
        have hslot : ∀ k, (s.enterGranted.setPresence false).loggedSlot k =
            if s.clip.filling.map Filling.slot = some k then some k else none := by rw [hu]; exact fun k => rfl
        rw [hseq] at h1 h2 h4
        rw [hnow] at h7
        simp only [hslot] at h9
        rw [hcard]
        exact ⟨h1, htold _ (State.clipLost_tells (by simp [Notice.kind]) h2), e, h3, h4, h5, h6, h7, h8, h9⟩
    · rw [c1]
      exact hidle
    · rw [c2, c1, c4, hopen h, ChunkBuffer.discardAll_eq]
      exact ⟨rfl, rfl, rfl⟩
    · obtain ⟨-, -, hfill, -⟩ := A.clip.interrupted_spec A.now
      obtain ⟨h1, h2⟩ := hfill f (by rw [hclipA]; exact hf)
      rw [c1, hopen h]
      refine ⟨h1.trans (by rw [hclipA]), h2.trans (by rw [hclipA, hnowA])⟩
    · rw [c1, c2, State.clipLost_of_idle (by rw [hclipA]; exact h)]
      exact ⟨hclipA, congrArg ChunkBuffer.queue hbufA⟩
  · rw [State.clipLost_of_open h, ChunkBuffer.discardAll_eq]
    cases hf : u.clip.filling <;> simp only [ClipRecorder.interrupted, hf] <;> rfl

end Sys2Proof.Machine
end


section
/-! SUPPORT. A block's end: BLOCK_FAILED, the bad-granule list, the skip and its damage, whole (R76, R77, R97, R100,
R111, R112). -/
namespace Sys2Proof.Machine

variable {s : State}

/-! ### Slots set twice -/

/-- A slot replaced, and what stands in it replaced again. -/
theorem ClipRecorder.setSlot_setSlot (c : ClipRecorder) (i : Nat) (x : Slot) (g : Slot → Slot) :
    (c.setSlot i x).slots.setIfInBounds i (g ((c.setSlot i x).slot i)) = c.slots.setIfInBounds i (g x) := by
  rcases Nat.lt_or_ge i 64 with h | h
  · rw [c.setSlot_slot, if_pos ⟨rfl, h⟩]
    apply Vector.ext
    intro k hk
    simp only [ClipRecorder.setSlot, Vector.getElem_setIfInBounds]
    split <;> rfl
  · rw [c.setSlot_outside h, Vector.setIfInBounds_eq_of_size_le h, Vector.setIfInBounds_eq_of_size_le h]

/-! ### The damage (R97) -/

/-- The stream ended at a position: the fillers from there on go, the rest of a block not yet acknowledged is filled,
and at position 0 nothing stands (R97, R100). -/
theorem State.endStreamAt_eq (s : State) (f : Filling) (pos : Nat) : s.endStreamAt f pos = { s with clip := { s.clip with
    filling := some { f with
      placement := if f.front ≤ pos / 512 ∧ pos % 512 ≠ 0 then (pos / 512 + 1) * 512 else pos
      fillers := if f.front ≤ pos / 512 ∧ pos % 512 ≠ 0 then f.fillers.filter (fun st => decide (st < pos)) ++ [pos]
        else f.fillers.filter (fun st => decide (st < pos))
      anyPlaced := f.anyPlaced && decide (pos ≠ 0) }
    slots := s.clip.slots.setIfInBounds f.slot
      (if pos = 0 then { s.clip.slot f.slot with firstSeq := none } else s.clip.slot f.slot) } } := by
  unfold State.endStreamAt
  by_cases hz : pos = 0
  · subst hz
    by_cases hf : f.front ≤ 0 / 512 <;>
      simp only [hf, if_true, if_false, Filling.endStream, Nat.zero_mod, ne_eq, not_true_eq_false, and_false, decide_false,
        Bool.and_false] <;> rfl
  · have hkeep : s.clip.slots.setIfInBounds f.slot (s.clip.slot f.slot) = s.clip.slots := s.clip.setSlot_self f.slot
    by_cases hf : f.front ≤ pos / 512 <;> by_cases hb : pos % 512 = 0 <;>
      simp only [hz, hf, hb, if_true, if_false, Filling.endStream, ne_eq, not_true_eq_false, not_false_eq_true, and_false,
        and_true, decide_true, Bool.and_true, hkeep] <;> rfl

/-- The last chunk whose placement stands is sought among those before the withdrawn ones. -/
theorem lastPlaced_withdrawn (q l : List Chunk) :
    ((q ++ l.map (fun e : Chunk => ({ e with place := none } : Chunk))).filter (fun e => e.place.isSome)).getLast? =
      (q.filter (fun e => e.place.isSome)).getLast? := by
  have hnone : (l.map (fun e : Chunk => ({ e with place := none } : Chunk))).filter (fun e => e.place.isSome) = [] :=
    List.filter_eq_nil_iff.mpr (by simp)
  rw [List.filter_append, hnone, List.append_nil]

/-- A mark on a chunk ahead of others, combined with the pending one: what stands behind does not matter. -/
theorem takeWhile_seq_append {q l : List Chunk} {e : Chunk} (h : e ∈ q) :
    (q ++ l).takeWhile (fun y => decide (y.seq ≠ e.seq)) = q.takeWhile (fun y => decide (y.seq ≠ e.seq)) := by
  rw [List.takeWhile_append]
  split
  · rename_i hlen
    have hall : ∀ y ∈ q, decide (y.seq ≠ e.seq) = true := by
      have := (List.takeWhile_prefix (l := q) (fun y => decide (y.seq ≠ e.seq))).eq_of_length hlen
      exact List.takeWhile_eq_self_iff.mp this
    exact absurd (hall e h) (by simp)
  · rfl

/-- A flush requested with the last chunk whose placement stands, all others withdrawn or discarded (R76, R97). -/
theorem State.markFlush_lastPlaced {q l : List Chunk} (hq : s.buffer.queue = q ++ l.map (fun e => { e with place := none })) :
    s.markFlush s.buffer.lastPlaced = { s with buffer := { s.buffer with
      flush := match (q.filter (fun e => e.place.isSome)).getLast? with
        | none => s.buffer.flush
        | some e => some (match s.buffer.flush with
          | none => e.seq
          | some m => if m ∈ (q.takeWhile (fun y => decide (y.seq ≠ e.seq))).map Chunk.seq then e.seq else m) } } := by
  have hlast : s.buffer.lastPlaced = ((q.filter (fun e => e.place.isSome)).getLast?).map Chunk.seq := by
    unfold ChunkBuffer.lastPlaced
    rw [hq, lastPlaced_withdrawn]
  rw [hlast]
  cases hl : (q.filter (fun e => e.place.isSome)).getLast? with
  | none => rfl
  | some e =>
    have he : e ∈ q := (List.mem_filter.mp (List.mem_of_getLast? hl)).1
    have hc : s.buffer.combineMark e.seq = match s.buffer.flush with
        | none => e.seq
        | some m => if m ∈ (q.takeWhile (fun y => decide (y.seq ≠ e.seq))).map Chunk.seq then e.seq else m := by
      rw [ChunkBuffer.combineMark_eq, hq, takeWhile_seq_append he] <;>
        cases s.buffer.flush <;> rfl
    unfold State.markFlush
    simp only [Option.map_some, hc]

/-- Placements withdrawn from a chunk on, where none before it has its sequence number. -/
theorem withdrawFrom_eq {b : ChunkBuffer} {q rest : List Chunk} {c : Chunk} (hq : b.queue = q ++ c :: rest)
    (hs : ∀ d ∈ q, d.seq ≠ c.seq) :
    withdrawFrom b.queue (b.indexOf c.seq) = q ++ (c :: rest).map (fun e => { e with place := none }) := by
  have hix : b.indexOf c.seq = q.length := by
    unfold ChunkBuffer.indexOf
    rw [hq, List.findIdx_append, if_neg]
    · simp [List.findIdx_cons]
    · rw [List.findIdx_lt_length]
      rintro ⟨x, hx, hxs⟩
      exact hs x hx (by simpa using hxs)
  unfold withdrawFrom
  rw [hix, hq, List.take_left', List.drop_left'] <;> rfl

/-- The segment damaged at a chunk, field by field (R97, R100). -/
theorem State.damageAt_eq {f : Filling} {q rest : List Chunk} {c : Chunk} {pos : Nat}
    (hq : s.buffer.queue = q ++ c :: rest) (hp : c.place = some pos) (hs : ∀ d ∈ q, d.seq ≠ c.seq) :
    s.damageAt f c = { s with
      buffer := { s.buffer with
        queue := if s.clip.state = .emergency then q else q ++ (c :: rest).map (fun e => { e with place := none })
        free := if s.clip.state = .emergency then s.buffer.free ++ (c :: rest).flatMap Chunk.pages else s.buffer.free
        discarded := if s.clip.state = .emergency then s.buffer.discarded + BitVec.ofNat 32 (rest.length + 1)
          else s.buffer.discarded
        flush := match (q.filter (fun e => e.place.isSome)).getLast? with
          | none => if s.clip.state = .emergency then s.buffer.flush.filter (fun m => decide (m ∈ q.map Chunk.seq))
            else s.buffer.flush
          | some e => some (match (if s.clip.state = .emergency then
                s.buffer.flush.filter (fun m => decide (m ∈ q.map Chunk.seq)) else s.buffer.flush) with
            | none => e.seq
            | some m => if m ∈ (q.takeWhile (fun y => decide (y.seq ≠ e.seq))).map Chunk.seq then e.seq else m) }
      clip := { s.clip with
        filling := some { f with
          pending := some .damaged, damagedAt := some pos
          placement := if f.front ≤ pos / 512 ∧ pos % 512 ≠ 0 then (pos / 512 + 1) * 512 else pos
          fillers := if f.front ≤ pos / 512 ∧ pos % 512 ≠ 0 then
              f.fillers.filter (fun st => decide (st < pos)) ++ [pos]
            else f.fillers.filter (fun st => decide (st < pos))
          anyPlaced := f.anyPlaced && decide (pos ≠ 0) }
        slots := s.clip.slots.setIfInBounds f.slot
          (if pos = 0 then { s.clip.slot f.slot with firstSeq := none } else s.clip.slot f.slot) } } := by
  unfold State.damageAt
  simp only [hp, Option.getD_some]
  by_cases he : s.clip.state = .emergency
  · simp only [if_pos he, State.endStreamAt_eq, s.buffer.discardFrom_eq hq hs]
    exact State.markFlush_lastPlaced (q := q) (l := []) (by simp)
  · simp only [if_neg he, State.endStreamAt_eq, withdrawFrom_eq hq hs]
    exact State.markFlush_lastPlaced (q := q) (l := c :: rest) rfl

/-! ### The block's end (R111) -/

theorem CardController.isBad_iff (c : CardController) (g : Nat) : c.isBad g = true ↔ ∃ e ∈ c.badList, e.granule = g := by
  simp [CardController.isBad]

/-- The bad-granule list after a granule has failed, and whether the granule stands in it (R112). -/
theorem CardController.joinBad_eq (c : CardController) (g addr slot : Nat) (now : Time) : c.joinBad g addr slot now =
    { c with badList := if (∃ e ∈ c.badList, e.granule = g) ∨ 32 ≤ c.badList.length then c.badList
        else c.badList ++ [{ granule := g, addr := addr, slot := slot, time := now }] } := by
  unfold CardController.joinBad
  simp only [Bool.or_eq_true, decide_eq_true_eq, c.isBad_iff]
  split <;> rfl

theorem CardController.joinBad_isBad (c : CardController) (g addr slot : Nat) (now : Time) :
    (c.joinBad g addr slot now).isBad g = true ↔ (∃ e ∈ c.badList, e.granule = g) ∨ c.badList.length < 32 := by
  rw [CardController.isBad_iff, CardController.joinBad_eq]
  dsimp only
  by_cases hl : ∃ e ∈ c.badList, e.granule = g
  · rw [if_pos (.inl hl)]
    simp only [hl, true_or]
  · by_cases hb : 32 ≤ c.badList.length
    · rw [if_pos (.inr hb)]
      exact iff_of_false hl (fun k => k.elim hl (Nat.not_lt.mpr hb))
    · rw [if_neg (by simp only [hl, hb, or_self, not_false_eq_true])]
      refine ⟨fun _ => .inr (by omega), fun _ => ⟨_, List.mem_append_right _ List.mem_cons_self, rfl⟩⟩

/-- The first placed chunk that ends past a limit. -/
theorem ChunkBuffer.firstPast_none {b : ChunkBuffer} {limit : Nat}
    (h : ∀ c p, c ∈ b.queue → c.place = some p → p + (16 + c.length) ≤ limit) : b.firstPast limit = none := by
  unfold ChunkBuffer.firstPast
  rw [List.find?_eq_none]
  intro c hc
  cases hp : c.place with
  | none => simp
  | some p =>
    have := h c p hc hp
    simp only [Chunk.streamEnd, Chunk.streamBytes, hp, Option.getD_some]
    simp
    omega

theorem ChunkBuffer.firstPast_some {b : ChunkBuffer} {limit : Nat} {q rest : List Chunk} {c : Chunk} {pos : Nat}
    (hq : b.queue = q ++ c :: rest) (hp : c.place = some pos) (hc : limit < pos + (16 + c.length))
    (h : ∀ e p, e ∈ q → e.place = some p → p + (16 + e.length) ≤ limit) : b.firstPast limit = some c := by
  have hnone : ChunkBuffer.firstPast { b with queue := q } limit = none :=
    ChunkBuffer.firstPast_none (b := { b with queue := q }) (fun e p he hep => h e p he hep)
  unfold ChunkBuffer.firstPast at hnone ⊢
  rw [hq, List.find?_append, hnone, Option.none_or, List.find?_cons_of_pos]
  simp only [Chunk.streamEnd, Chunk.streamBytes, hp, Option.getD_some]
  simp [hc]

/-- The state that a block's end leaves but for the skip: the list and the log, with CARD_ERROR (R111, R112, R116). -/
def State.blockFailed (s : State) (r : Run) : State :=
  State.logError { s with
    card := s.card.joinBad (s.clip.cfg.granuleOf r.current) r.current r.slot s.now } .blockFailed r.current
    (s.loggedSlot r.slot) 3

theorem State.giveUpBlock_eq (s : State) (r : Run) : s.giveUpBlock r =
    (s.blockFailed r).skipGranule r.slot (s.clip.cfg.granuleOf r.current) (s.clip.cfg.offsetOf r.current)
      ((s.card.joinBad (s.clip.cfg.granuleOf r.current) r.current r.slot s.now).isBad
        (s.clip.cfg.granuleOf r.current)) := rfl

/-- A skip of a run whose segment is not FILLING leaves the clip recorder as it was (R97). -/
theorem State.skipGranule_other {slot g o : Nat} {joined : Bool} (h : ∀ f, s.clip.filling = some f → f.slot ≠ slot) :
    s.skipGranule slot g o joined = s := by
  unfold State.skipGranule
  split
  · rfl
  · rename_i f hf
    exact if_neg (h f hf)

/-- The segment being filled and its slot after a skip that is recorded or not, before any damage (R97). -/
def State.skipped (s : State) (f : Filling) (g o : Nat) (joined : Bool) : State :=
  if joined && decide ((s.clip.slot f.slot).skips.length < 4) then
    State.setFilling (s.setSlot f.slot { s.clip.slot f.slot with skips := (s.clip.slot f.slot).skips ++ [(g, o)] })
      { f with contrib := f.contrib.set (g - (s.clip.slot f.slot).first) o }
  else s

theorem State.skipGranule_eq {f : Filling} {slot : Nat} (hf : s.clip.filling = some f) (hs : f.slot = slot) (g o : Nat)
    (joined : Bool) : s.skipGranule slot g o joined =
      let r := joined && decide ((s.clip.slot slot).skips.length < 4)
      let f1 := if r then { f with contrib := f.contrib.set (g - (s.clip.slot slot).first) o } else f
      match s.buffer.firstPast (if r then f1.capacity else 512 * f.front) with
      | none => s.skipped f g o joined
      | some c => (s.skipped f g o joined).damageAt f1 c := by
  subst hs
  unfold State.skipGranule State.skipped
  simp only [hf, if_true]
  cases hr : (joined && decide ((s.clip.slot f.slot).skips.length < 4))
  · simp only [Bool.false_eq_true, if_false] <;> cases s.buffer.firstPast (512 * f.front) <;> rfl
  · simp only [if_true]
    generalize hb : ChunkBuffer.firstPast _ _ = c
    rw [show s.buffer.firstPast _ = c from hb] <;> cases c <;> rfl

/-- The skip field by field, given whether it is recorded. -/
theorem State.skipped_eq {f : Filling} (hf : s.clip.filling = some f) (g o : Nat) {joined : Bool} {rec : Prop}
    [Decidable rec] (h : (joined && decide ((s.clip.slot f.slot).skips.length < 4)) = true ↔ rec) :
    s.skipped f g o joined = { s with clip := { s.clip with
      filling := some { f with contrib :=
        if rec then f.contrib.set (g - (s.clip.slot f.slot).first) o else f.contrib }
      slots := s.clip.slots.setIfInBounds f.slot (if rec then
        { s.clip.slot f.slot with skips := (s.clip.slot f.slot).skips ++ [(g, o)] } else s.clip.slot f.slot) } } := by
  unfold State.skipped
  by_cases hr : rec
  · simp only [if_pos hr, if_pos (h.mpr hr)]
    rfl
  · simp only [if_neg hr, if_neg (mt h.mp hr), s.clip.setSlot_self]
    rw [← hf]

/-- A skip after which every placed chunk still ends within: filling goes on (R97). -/
theorem State.skipGranule_within {f : Filling} {slot g o : Nat} {joined : Bool} {rec : Prop} [Decidable rec]
    (hf : s.clip.filling = some f) (hs : f.slot = slot)
    (h : (joined && decide ((s.clip.slot slot).skips.length < 4)) = true ↔ rec)
    (hall : ∀ c p, c ∈ s.buffer.queue → c.place = some p → p + (16 + c.length) ≤
      if rec then (f.contrib.set (g - (s.clip.slot slot).first) o).sum * 512 else 512 * f.front) :
    s.skipGranule slot g o joined = s.skipped f g o joined := by
  rw [State.skipGranule_eq hf hs]
  have hnone := ChunkBuffer.firstPast_none hall
  by_cases hr : rec
  · rw [if_pos hr] at hnone
    rw [h.mpr hr]
    simp only [if_true, Filling.capacity, Filling.usable, hnone]
  · rw [if_neg hr] at hnone
    rw [Bool.eq_false_iff.mpr (mt h.mp hr)]
    simp only [Bool.false_eq_true, if_false, hnone]

/-- A skip that damages the segment at the first placed chunk that ends past the limit (R97). -/
theorem State.skipGranule_damaged {f : Filling} {slot g o : Nat} {joined : Bool} {rec : Prop} [Decidable rec]
    {q rest : List Chunk} {c : Chunk} {pos : Nat} (hf : s.clip.filling = some f) (hs : f.slot = slot)
    (h : (joined && decide ((s.clip.slot slot).skips.length < 4)) = true ↔ rec)
    (hq : s.buffer.queue = q ++ c :: rest) (hp : c.place = some pos)
    (hc : (if rec then (f.contrib.set (g - (s.clip.slot slot).first) o).sum * 512 else 512 * f.front) <
      pos + (16 + c.length))
    (hall : ∀ e p, e ∈ q → e.place = some p → p + (16 + e.length) ≤
      if rec then (f.contrib.set (g - (s.clip.slot slot).first) o).sum * 512 else 512 * f.front) :
    s.skipGranule slot g o joined = (s.skipped f g o joined).damageAt
      { f with contrib := if rec then f.contrib.set (g - (s.clip.slot slot).first) o else f.contrib } c := by
  rw [State.skipGranule_eq hf hs]
  have hsome := ChunkBuffer.firstPast_some hq hp hc hall
  by_cases hr : rec
  · rw [if_pos hr] at hsome
    rw [h.mpr hr]
    simp only [if_true, Filling.capacity, Filling.usable, hsome, if_pos hr]
  · rw [if_neg hr] at hsome
    rw [Bool.eq_false_iff.mpr (mt h.mp hr)]
    simp only [Bool.false_eq_true, if_false, hsome, if_neg hr]

end Sys2Proof.Machine
end


section
/-! SUPPORT. A run's end and its failures, its blocks, and the card's timeouts (R103, R108–R114, R117, R120, R121). -/
namespace Sys2Proof.Machine

variable {s : State}

/-! ### What a block's end leaves beyond the clip column -/

@[simp] theorem beyondClip_skipped (s : State) (f : Filling) (g o : Nat) (joined : Bool) :
    (s.skipped f g o joined).beyondClip = s.beyondClip := by
  unfold State.skipped
  split <;> simp

@[simp] theorem beyondClip_damageAt (s : State) (f : Filling) (c : Chunk) :
    (s.damageAt f c).beyondClip = s.beyondClip := by
  unfold State.damageAt
  simp only [beyondClip_markFlush, beyondClip_endStreamAt, beyondClip_buffer]

@[simp] theorem beyondClip_skipGranule (s : State) (slot g o : Nat) (joined : Bool) :
    (s.skipGranule slot g o joined).beyondClip = s.beyondClip := by
  cases hf : s.clip.filling with
  | none => rw [State.skipGranule_other (by simp [hf])]
  | some f =>
    by_cases hs : f.slot = slot
    · rw [State.skipGranule_eq hf hs]
      dsimp only
      split <;> simp
    · rw [State.skipGranule_other (by rw [hf]; rintro f' h; cases h; exact hs)]

@[simp] theorem beyondClip_giveUpBlock (s : State) (r : Run) :
    (s.giveUpBlock r).beyondClip = (s.blockFailed r).beyondClip := beyondClip_skipGranule _ _ _ _ _

/-- What lies beyond the clip column is the same in states that agree there. -/
theorem eq_of_beyondClip {α : Type} (g : State → α) {a b : State} (h : a.beyondClip = b.beyondClip)
    (hg : ∀ u : State, g u.beyondClip = g u) : g a = g b := by
  rw [← hg a, ← hg b, h]

theorem State.settleClip_card (s : State) : s.settleClip.card = s.card :=
  eq_of_beyondClip State.card (beyondClip_settleClip s) fun _ => rfl

theorem State.settleClip_now (s : State) : s.settleClip.now = s.now :=
  eq_of_beyondClip State.now (beyondClip_settleClip s) fun _ => rfl

/-! ### A run's end and its failures -/

/-- CLOSE_RUN acknowledged at the end of a run: out of RUN, the condition of R121 in words. -/
theorem State.leaveRun_sleeps (s : State) (t : Time) (ht : later s.now 50000 = t) : s.leaveRun = { s with
    budget := { s.budget with grant := .none }
    card := { s.card with
      run := none, state := .ready
      bus := if s.clip.cfg.sleepEnable = true ∧ s.buffer.flush = none ∧
          s.buffer.pendingBytes < 1024 * s.clip.cfg.batchKiB ∧ s.buffer.runDue s.clip.cfg.batchKiB = false then
        some { op := .sleep, deadline := t } else none } } := by
  rw [State.leaveRun_eq, ht]
  simp only [s.sleepAllowed_iff]

/-- Settles O50: the answers by operation, the block's end by its skip, and the shock hold's end. -/
theorem runFailures : Obligations.RunFailures := by
  refine ⟨fun s r op d hr hb ht => ?_, fun s r => ?_, fun s d hd => ⟨fun ht => ?_, fun ht => ⟨fun r hr ha => ?_, fun hr => ?_⟩⟩⟩
  · intro here sent failed leaves
    have haw := State.awaited_eq hb ht
    refine ⟨fun a data ho => ?_, fun a ho => ?_, fun ho => ⟨fun ha => ?_, fun ha hh => ?_, fun ha hh => ?_, fun ha => ?_⟩⟩
    · refine congrArg Host.Outcome.next ?_
      rw [State.onBlockToken, haw, hr, ho]
      rfl
    · refine congrArg Host.Outcome.next ?_
      rw [State.onBusyEnd, haw, hr, ho]
      rfl
    all_goals
      have hexec : exec .closeRunAck s = .next (s.runClosed r).conclude := by
        refine congrArg Host.Outcome.next ?_
        rw [State.onCloseRunAck, haw, hr, ho]
      unfold State.runClosed at hexec
      rw [ha] at hexec
    · exact hexec.trans (congrArg (fun u : State => Host.Outcome.next u.conclude) (s.leaveRun_sleeps _ rfl))
    · refine hexec.trans (congrArg (fun u : State => Host.Outcome.next u.conclude) (if_neg (by simp [hh])))
    · refine hexec.trans (congrArg (fun u : State => Host.Outcome.next u.conclude) (if_pos ?_))
      exact Option.isSome_iff_ne_none.mpr hh
    · intro skipped
      have hgive := eq_of_beyondClip State.now (beyondClip_giveUpBlock (s.setGrant .none) r) fun _ => rfl
      have hnow : skipped.settleClip.syncBuffer.now = s.now := skipped.settleClip_now.trans hgive
      have hleft := skipped.settleClip.syncBuffer.leaveRun_sleeps (later s.now 50000) (by rw [hnow])
      have hexec' : exec .closeRunAck s = .next (leaves skipped.settleClip.syncBuffer) :=
        hexec.trans (congrArg (fun u : State => Host.Outcome.next u.conclude) hleft)
      refine ⟨hexec', _, hexec', ?_⟩
      obtain ⟨-, -, -, hcard, -, -, -, -, ⟨g, hg, hheld⟩, -⟩ := conclude_spec ({ skipped.settleClip.syncBuffer with
        budget := { skipped.settleClip.syncBuffer.budget with grant := .none }
        card := { skipped.settleClip.syncBuffer.card with
          run := none, state := .ready
          bus := if skipped.settleClip.syncBuffer.clip.cfg.sleepEnable = true ∧
              skipped.settleClip.syncBuffer.buffer.flush = none ∧
              skipped.settleClip.syncBuffer.buffer.pendingBytes <
                1024 * skipped.settleClip.syncBuffer.clip.cfg.batchKiB ∧
              skipped.settleClip.syncBuffer.buffer.runDue skipped.settleClip.syncBuffer.clip.cfg.batchKiB = false then
            sent .sleep else none } } : State)
      have hkept : skipped.settleClip.syncBuffer.card = skipped.card := skipped.settleClip_card
      simp only [leaves]
      rw [hcard, hg]
      refine ⟨rfl, fun k => ?_, .inl rfl, ?_, ?_, ?_⟩
      · exact absurd (hheld.mpr k) (by simp)
      all_goals rw [← hkept]
  · intro here size g o listed joined entry told
    have htold : s.blockFailed r = told := by
      unfold State.blockFailed
      rw [State.logError_eq, CardController.joinBad_eq]
      rfl
    have hjoined : (s.card.joinBad (s.clip.cfg.granuleOf r.current) r.current r.slot s.now).isBad
        (s.clip.cfg.granuleOf r.current) = true ↔ joined := CardController.joinBad_isBad _ _ _ _ _
    refine ⟨fun hf => ?_, fun f hf hs => ?_⟩
    · rw [State.giveUpBlock_eq, State.skipGranule_other (s := s.blockFailed r) hf, htold]
    · intro x recorded contrib x' limit
      have hslot : (s.blockFailed r).clip.slot r.slot = x := by rw [← hs]; rfl
      have hrec : ((s.card.joinBad (s.clip.cfg.granuleOf r.current) r.current r.slot s.now).isBad
          (s.clip.cfg.granuleOf r.current) && decide (((s.blockFailed r).clip.slot r.slot).skips.length < 4)) = true ↔
          recorded := by
        rw [hslot, Bool.and_eq_true, decide_eq_true_eq, hjoined]
      have hrec' : ((s.card.joinBad (s.clip.cfg.granuleOf r.current) r.current r.slot s.now).isBad
          (s.clip.cfg.granuleOf r.current) && decide (((s.blockFailed r).clip.slot f.slot).skips.length < 4)) = true ↔
          recorded := by
        rw [hs]
        exact hrec
      have hlimit : (if recorded then (f.contrib.set (s.clip.cfg.granuleOf r.current -
            ((s.blockFailed r).clip.slot r.slot).first) (s.clip.cfg.offsetOf r.current)).sum * 512
          else 512 * f.front) = limit := by
        rw [hslot]
        simp only [limit, contrib]
        split <;> rfl
      have hskip := State.skipped_eq (s := s.blockFailed r) (f := f) hf (s.clip.cfg.granuleOf r.current)
        (s.clip.cfg.offsetOf r.current) hrec'
      refine ⟨fun hall => ?_, fun q c rest pos hq hp hc hall hseq => ?_⟩
      · rw [State.giveUpBlock_eq, State.skipGranule_within (s := s.blockFailed r) hf hs hrec
          (fun c p hc hp => (hall c p hc hp).trans hlimit.ge), hskip, htold]
        rfl
      · intro emergency filled kept flush
        rw [State.giveUpBlock_eq, State.skipGranule_damaged (s := s.blockFailed r) hf hs hrec hq hp
          (hlimit.trans_lt hc) (fun e p he hp => (hall e p he hp).trans hlimit.ge), hskip, hslot]
        refine (State.damageAt_eq (q := q) (rest := rest) (pos := pos) (by exact hq) hp hseq).trans ?_
        have hslots := s.clip.setSlot_setSlot f.slot x' (fun y => if pos = 0 then { y with firstSeq := none } else y)
        rw [htold]
        congr 1
        exact congrArg (fun v => ({ s.clip with
          slots := v
          filling := some { f with
            contrib := contrib, pending := some .damaged, damagedAt := some pos
            placement := if filled then (pos / 512 + 1) * 512 else pos
            fillers := if filled then kept ++ [pos] else kept
            anyPlaced := f.anyPlaced && decide (pos ≠ 0) } } : ClipRecorder)) hslots
  · exact congrArg Host.Outcome.next (if_neg (by simp [hd, ht]))
  · refine congrArg Host.Outcome.next ((if_pos (by simp [hd, ht])).trans (congrArg State.conclude ?_))
    unfold State.endShockHold
    simp only [hr, ha, if_true]
    rfl
  · refine congrArg Host.Outcome.next ((if_pos (by simp [hd, ht])).trans (congrArg State.conclude ?_))
    unfold State.endShockHold
    cases hrun : s.card.run with
    | none => rfl
    | some r =>
      simp only [hr r hrun]
      rfl

/-! ### Timeouts (R113) -/

/-- A timeout: everything abandoned, the entry made, and the card in RECOVER, or at the third in FAULT. -/
theorem State.timeout_eq (s : State) (kind : LogKind) (addr : Nat) (slot : Option Nat) {t : Time}
    (ht : later s.now 50000 = t) : s.timeout kind addr slot =
    let told := State.logError { s with
      budget := { s.budget with grant := .none }
      card := { s.card with bus := none, run := none, ident := none } } kind addr slot 1
    let counted : State := { told with card := { told.card with recovery := s.card.recovery + 1 } }
    if s.card.recovery < 2 then ({ counted with card := { counted.card with
      state := .recover, bus := some { op := .identify, deadline := t }
      ident := some { origin := .recovery, attempt := 1, capacity := none } } } : State)
    else State.clipLost { counted with card := { counted.card with state := .fault } } := by
  unfold State.timeout State.countTimeout
  rw [State.logError_eq, State.logError_eq]
  by_cases hr : s.card.recovery < 2
  · refine (if_neg ?_).trans (.trans ?_ (if_pos hr).symm)
    · show ¬3 ≤ s.card.recovery + 1
      omega
    · rw [← ht]
      rfl
  · refine (if_pos ?_).trans (.trans ?_ (if_neg hr).symm)
    · show 3 ≤ s.card.recovery + 1
      omega
    · rfl

/-- A timeout of a command of a run that has a block in hand. -/
theorem State.runTimeout_open {r : Run} {kind : LogKind} (hr : s.card.run = some r) (h : s.runEnded r = false) :
    s.runTimeout kind = s.timeout kind (r.addr + r.acked) (s.loggedSlot r.slot) := by
  unfold State.runTimeout State.withRunBlock
  simp only [hr, h]
  rfl

/-- A timeout of a run that has ended: the address of its entry is open. -/
theorem State.runTimeout_ended {r : Run} {kind : LogKind} (hr : s.card.run = some r) (h : s.runEnded r = true) :
    s.runTimeout kind = State.timeout { s with freeCount := s.freeCount + 1 } kind
      (Config.freeWord s.freeCount).toNat (s.loggedSlot r.slot) := by
  unfold State.runTimeout State.withRunBlock
  simp only [hr, h]
  rfl

theorem State.runTimeout_none {kind : LogKind} (hr : s.card.run = none) : s.runTimeout kind = s.timeout kind 0 none := by
  unfold State.runTimeout State.withRunBlock
  rw [hr]

/-- Whether a run has ended, given the operation in flight. -/
theorem State.runEnded_iff {op : CardOp} {d : Time} (hb : s.card.bus = some { op := op, deadline := d }) (r : Run) :
    s.runEnded r = true ↔ r.count ≤ r.acked ∨ r.after = .leave ∧ op = .closeRun := by
  simp [State.runEnded, hb]

/-- A block's end leaves the run in hand as it was, and the operation in flight. -/
theorem State.skipBlock_frame (s : State) (r : Run) : (s.skipBlock r).card.run = s.card.run ∧
    (s.skipBlock r).card.bus = s.card.bus ∧ (s.skipBlock r).now = s.now := by
  have h : (s.skipBlock r).beyondClip = (s.blockFailed r).beyondClip := by
    unfold State.skipBlock
    rw [beyondClip_settleClip, beyondClip_giveUpBlock]
  have hcard := eq_of_beyondClip State.card h fun _ => rfl
  have hnow := eq_of_beyondClip State.now h fun _ => rfl
  rw [hcard, hnow]
  unfold State.blockFailed
  rw [State.logError_eq, CardController.joinBad_eq]
  exact ⟨rfl, rfl, rfl⟩

/-- Settles O51: the operation in flight decides what its timeout is. -/
theorem cardTimeouts : Obligations.CardTimeouts := by
  intro s op d hb ht identify timeout ended drawn slotOf inRun
  have htimed : s.timedOut = some op := by simp [State.timedOut, hb, ht]
  have hcommand : (∀ a, op ≠ .busy a) → exec .cardTimeout s = .next (s.commandTimeout op).conclude := by
    intro hop
    refine congrArg Host.Outcome.next ?_
    unfold State.onCardTimeout
    rw [htimed]
    cases op with
    | busy a => exact absurd rfl (hop a)
    | _ => rfl
  have htimeout : ∀ (u : State) (kind : LogKind) (addr : Nat) (slot : Option Nat), u.now = s.now →
      u.timeout kind addr slot = timeout kind addr slot u :=
    fun u kind addr slot hu => u.timeout_eq kind addr slot (by rw [hu])
  have hin : ∀ (c : Instr) (kind : LogKind), exec c s = .next (s.runTimeout kind).conclude → inRun c kind := by
    intro c kind hc
    refine ⟨fun hr => ?_, fun r hr => ⟨fun he => ?_, fun he => ⟨(Config.freeWord s.freeCount).toNat, ?_⟩⟩⟩
    · rw [hc, State.runTimeout_none hr, htimeout _ _ _ _ rfl]
    · rw [hc, State.runTimeout_open hr (Bool.eq_false_iff.mpr (mt (State.runEnded_iff hb r).mp he)), htimeout _ _ _ _ rfl]
      rfl
    · rw [hc, State.runTimeout_ended hr ((State.runEnded_iff hb r).mpr he)]
      exact congrArg (fun u : State => Host.Outcome.next u.conclude) (htimeout (drawn 1) _ _ _ rfl)
  have hclose : op = .closeRun → (∀ r, s.card.run = some r → r.after ≠ .giveUp) →
      s.commandTimeout op = s.runTimeout .noResponse := by
    intro ho hr
    rw [ho]
    show s.closeTimeout = _
    unfold State.closeTimeout
    cases hrun : s.card.run with
    | none => rfl
    | some r => exact if_neg (hr r hrun)
  refine ⟨fun ho => hin _ _ ?_, fun ho hr => hin _ _ ?_, fun r ho hr ha hlt => ?_, fun ho => ?_,
    fun ⟨a, ho⟩ => ⟨hin _ _ ?_, ?_⟩, fun i hi ho => ?_⟩
  · rcases ho with ⟨a, k, rfl⟩ | ⟨a, data, rfl⟩
    · exact hcommand (by simp)
    · exact hcommand (by simp)
  · rw [hcommand (by simp [ho]), hclose ho hr]
  · intro skipped timedOut
    have hexec : exec .cardTimeout s = .next (s.chooseFree (fun s' => (s'.skipBlock r).runTimeout .noResponse)
        (fun s' => (s'.runTimeout .noResponse).skipBlock r)).conclude := by
      rw [hcommand (by simp [ho]), ho]
      show Host.Outcome.next s.closeTimeout.conclude = _
      unfold State.closeTimeout
      rw [hr]
      exact congrArg (fun u : State => Host.Outcome.next u.conclude) (if_pos ha)
    have hopen : ∀ u : State, u.card.run = s.card.run → u.card.bus = s.card.bus → u.now = s.now →
        u.runTimeout .noResponse = timedOut u := by
      intro u hur hub hun
      rw [State.runTimeout_open (hur.trans hr), htimeout u _ _ _ hun]
      · rfl
      · rw [Bool.eq_false_iff, ne_eq, State.runEnded_iff (hub.trans hb), not_or, ha]
        exact ⟨by omega, by simp⟩
    unfold State.chooseFree at hexec
    by_cases hfree : Config.freeBool s.freeCount = true
    · left
      rw [hexec, if_pos hfree]
      obtain ⟨k1, k2, k3⟩ := (drawn 1).skipBlock_frame r
      exact congrArg (fun u : State => Host.Outcome.next u.conclude) (hopen _ k1 k2 k3)
    · right
      rw [hexec, if_neg hfree]
      refine congrArg (fun u : State => Host.Outcome.next (u.skipBlock r).conclude) ?_
      exact hopen (drawn 1) rfl rfl rfl
  · rw [← htimeout s _ _ _ rfl]
    rcases ho with rfl | ⟨rfl, hi⟩
    · exact hcommand (by simp)
    · rw [hcommand (by simp)]
      unfold State.commandTimeout
      rw [hi]
  · refine congrArg Host.Outcome.next ?_
    rw [State.onBusyTimeout, htimed, ho]
  · refine congrArg Host.Outcome.next ?_
    rw [State.onCardTimeout, htimed, ho]
  · have hfails : exec .cardTimeout s = .next (s.clearBus.tryFails i).conclude := by
      rcases ho with rfl | rfl | rfl
      all_goals
        rw [hcommand (by simp)]
        unfold State.commandTimeout
        simp only [hi]
    refine ⟨fun hn => ?_, fun hn => ?_⟩
    · rw [hfails, State.tryFails_again hn]
      rfl
    · rw [hfails, State.tryFails_last hn]
      rfl

end Sys2Proof.Machine
end


section
/-! SUPPORT. A run's blocks: sent, acknowledged and corrected (R70, R96, R103, R108, R109, R116, R117). -/
namespace Sys2Proof.Machine

variable {s : State}

/-- Whether a granule may be written, in words (R82, R83). -/
theorem State.granuleWritable_iff (s : State) (g : Nat) : s.granuleWritable g = true ↔
    s.clip.window.getLsbD g = true ∧
    s.clip.cfg.areaBase + (g + 1) * (16384 * 2 ^ s.clip.cfg.sizeCode) ≤ s.card.capacity.toNat := by
  unfold State.granuleWritable ClipCfg.withinCard ClipCfg.granuleBlocks
  rw [Bool.and_eq_true, decide_eq_true_eq]

/-- A correctable event: counted, and an entry made once per granule (R117). -/
theorem State.correctable_eq (s : State) (addr slot attempts : Nat) {logged : Prop} [Decidable logged]
    (h : s.clip.cfg.granuleOf addr ∉ s.card.suppressed ∧ s.card.suppressed.length < 64 ↔ logged) :
    s.correctable addr slot attempts = { s with card := { s.card with
      corrected := s.card.corrected + 1
      suppressed := if logged then s.card.suppressed ++ [s.clip.cfg.granuleOf addr] else s.card.suppressed
      logSeq := if logged then s.card.logSeq + 1 else s.card.logSeq
      log := if logged then (if s.card.log.length < 32 then s.card.log else s.card.log.drop 1) ++ [{
        seq := s.card.logSeq + 1, kind := .corrected, addr := addr, attempts := attempts, time := s.now
        slot := s.loggedSlot slot }] else s.card.log
      overflow := if logged ∧ 32 ≤ s.card.log.length then s.card.overflow + 1 else s.card.overflow } } := by
  have hc : (s.card.suppressed.contains (s.clip.cfg.granuleOf addr) || decide (64 ≤ s.card.suppressed.length)) = true ↔
      ¬logged := by
    rw [← h, Bool.or_eq_true, decide_eq_true_eq, List.contains_iff_mem, not_and_or, not_not, Nat.not_lt]
  unfold State.correctable
  by_cases hl : logged
  · refine (if_neg (fun k => hc.mp k hl)).trans ?_
    unfold CardController.logAdd
    by_cases h32 : s.card.log.length < 32
    · simp only [if_pos hl, if_pos h32, if_neg (show ¬(logged ∧ 32 ≤ s.card.log.length) from fun k => by omega)]
    · simp only [if_pos hl, if_neg h32, if_pos (show logged ∧ 32 ≤ s.card.log.length from ⟨hl, by omega⟩)]
  · refine (if_pos (hc.mpr hl)).trans ?_
    simp only [if_neg hl, if_neg (show ¬(logged ∧ 32 ≤ s.card.log.length) from fun k => hl k.1)]

/-- The end of an event keeps the card, and all of the buffer that the standing work leaves but HOLD and the latency
deadline. -/
theorem State.conclude_buffer (s : State) : s.conclude.card = s.card ∧ ∃ hold d e,
    s.conclude.buffer = { s.settleClip.buffer with hold := hold, latDeadline := d, latExpired := e } := by
  obtain ⟨g, hold, d, e, h⟩ := s.settle_eq
  refine ⟨(conclude_spec s).2.2.2.1, hold, d, e, ?_⟩
  unfold State.conclude
  rw [arbitrate_buffer, h]

/-- In RECORDING with no close pending and every descriptor placed or still arriving there is no standing work. -/
theorem State.settleClip_recording {f : Filling} (hf : s.clip.filling = some f) (hc : s.clip.state = .recording)
    (hp : f.pending = none) (hq : ∀ c ∈ s.buffer.queue, c.place = none → c.state = .receiving) : s.settleClip = s := by
  have hn : s.nextPlacement = none := by
    unfold State.nextPlacement
    split
    · rename_i f' c _ hfind
      have hm := List.mem_of_find?_eq_some hfind
      have hnone : c.place = none := by simpa using List.find?_some hfind
      exact if_neg (by simp [hq c hm hnone])
    · rfl
  rw [State.settleClip_done (State.drained_of_open hf hp) hn]
  unfold State.finishClose
  rw [hc]
  simp

/-- Sending the next block, or CLOSE_RUN, changes the card alone. -/
theorem State.nextBlock_frame (s : State) (r : Run) : ∃ card, s.nextBlock r = { s with card := card } ∧
    card.recovery = s.card.recovery ∧ card.badList = s.card.badList ∧ card.corrected = s.card.corrected := by
  unfold State.nextBlock
  split
  · exact ⟨_, rfl, rfl, rfl, rfl⟩
  · split
    · exact ⟨_, rfl, rfl, rfl, rfl⟩
    · exact ⟨_, rfl, rfl, rfl, rfl⟩

/-- What stream byte a segment gives follows the queue, the page memory and the fillers. -/
theorem State.streamByte_congr {u v : State} {f f' : Filling} (hq : u.buffer.queue = v.buffer.queue)
    (hr : u.buffer.ram = v.buffer.ram) (hf : f.fillers = f'.fillers) (p : Nat) : u.streamByte f p = v.streamByte f' p := by
  unfold State.streamByte
  rw [hq, hr, hf]

/-- Settles O49: the next block or CLOSE_RUN, and the acknowledgement with its credit, count and standing work. -/
theorem runBlocks : Obligations.RunBlocks := by
  intro s r op d hr hb ht sent here n may goesOn
  have haw := State.awaited_eq hb ht
  have hmay : ∀ (v : State) (f : Filling) (run : Run), v.clip.filling = some f → run.addr = r.addr →
      run.first = r.first → run.slot = r.slot → run.count = r.count →
      (run.acked < run.count ∧ v.blockAllowed run = true ↔ may v f run.acked) := by
    intro v f run hf h1 h2 h3 h4
    rw [State.blockAllowed_iff hf, State.granuleWritable_iff]
    unfold Run.current ClipCfg.granuleOf ClipCfg.granuleBlocks
    rw [h1, h2, h3, h4]
    simp only [may, and_assoc]
  have hgoes : ∀ (c : Instr) (v : State) (run : Run), exec c s = .next (v.nextBlock run).conclude → v.now = s.now →
      run.addr = r.addr → run.first = r.first → run.slot = r.slot → run.count = r.count →
      goesOn c v run.acked run := by
    intro c v run hc hnow h1 h2 h3 h4
    refine ⟨fun f hf hm => ?_, fun hnot => ?_⟩
    · rw [hc, State.nextBlock_sent hf ((hmay v f run hf h1 h2 h3 h4).mpr hm), hnow, Run.current, h1, h2]
      rfl
    · rw [hc, State.nextBlock_closes, hnow]
      intro hne hk
      obtain ⟨f, hf⟩ := Option.ne_none_iff_exists'.mp hne
      exact hnot f hf ((hmay v f run hf h1 h2 h3 h4).mp hk)
  refine ⟨fun a k ho => hgoes _ _ r ?_ rfl rfl rfl rfl rfl, fun a data ho => ?_, fun a ho => ?_⟩
  · refine congrArg Host.Outcome.next ?_
    rw [State.onOpenRunAck, haw, hr, ho]
  · refine congrArg Host.Outcome.next ?_
    rw [State.onBlockToken, haw, hr, ho]
    rfl
  · intro g logged entry card next credited whole gone left
    have hcard : (if r.attempts = 0 then s else s.correctable r.current r.slot (r.attempts + 1)) =
        { s with card := { card with recovery := s.card.recovery } } := by
      by_cases h0 : r.attempts = 0
      · have hl : ¬logged := fun k => k.1 h0
        rw [if_pos h0]
        simp only [card, if_pos h0, if_neg hl, if_neg (show ¬(logged ∧ 32 ≤ s.card.log.length) from fun k => hl k.1)]
      · rw [if_neg h0, State.correctable_eq (logged := logged) s r.current r.slot (r.attempts + 1) ⟨fun k => ⟨h0, k⟩, fun k => k.2⟩]
        simp only [card, if_neg h0]
        rfl
    have hexec : exec (.busyEnd true) s =
        .next ((State.ackBlock { s with card := card } r.slot n).settleClip.nextBlock next).conclude := by
      refine congrArg Host.Outcome.next ?_
      rw [State.onBusyEnd, haw, hr, ho]
      show (State.blockDone s r).conclude = _
      unfold State.blockDone
      rw [hcard]
    have hother : (∀ f, s.clip.filling = some f → f.slot ≠ r.slot) →
        State.ackBlock { s with card := card } r.slot n = { s with card := card } := by
      intro hf
      refine State.ackBlock_other ?_ n
      show s.clip.filling.map Filling.slot ≠ some r.slot
      cases hfill : s.clip.filling with
      | none => simp
      | some f => simpa using hf f hfill
    have hcredit : (s.buffer.mapQueue (Chunk.credit n)).queue = credited := by
      refine List.map_congr_left fun c _ => ?_
      unfold Chunk.credit <;> cases c.place <;> rfl
    have hack : ∀ f, s.clip.filling = some f → f.slot = r.slot → State.ackBlock { s with card := card } r.slot n = { s with
        card := card
        buffer := { s.buffer with
          queue := left, free := s.buffer.free ++ gone.flatMap Chunk.pages
          written := s.buffer.written + BitVec.ofNat 32 gone.length
          flush := s.buffer.flush.filter (fun m => decide (m ∈ left.map Chunk.seq)) }
        clip := { s.clip with
          filling := some { f with front := if n = f.front then n + 1 else f.front }
          slots := match gone.getLast? with
            | none => s.clip.slots
            | some c => s.clip.slots.setIfInBounds f.slot { s.clip.slot f.slot with
              streamLen := c.place.getD 0 + (16 + c.length), lastSeq := some c.seq } } } := by
      intro f hf hs
      rw [State.ackBlock_eq (s := { s with card := card }) hf hs, ChunkBuffer.popWritten_eq]
      have hgone : (s.buffer.mapQueue (Chunk.credit n)).writtenHead = gone := by
        unfold ChunkBuffer.writtenHead
        rw [hcredit]
        rfl
      simp only [hcredit, hgone, hs]
      cases gone.getLast? <;> rfl
    refine ⟨fun hf => ?_, fun f hf hs => ?_, fun f hf hc hp hs hn hq => ?_⟩
    · rw [hother hf] at hexec
      exact hgoes _ _ next hexec (State.settleClip_now _) rfl rfl rfl rfl
    · rw [hack f hf hs] at hexec
      exact hgoes _ _ next hexec (State.settleClip_now _) rfl rfl rfl rfl
    · have hfront : (if n = f.front then n + 1 else f.front) = f.front + 1 := by rw [if_pos hn, hn]
      rw [hack f hf hs, hfront] at hexec
      generalize hA : ({ s with card := card, buffer := _, clip := _ } : State) = A at hexec
      have hfillA : A.clip.filling = some { f with front := f.front + 1 } := by rw [← hA]
      have hqA : ∀ c ∈ A.buffer.queue, c.place = none → c.state = .receiving := by
        rw [← hA]
        intro c hcm hplace
        obtain ⟨c0, hc0, rfl⟩ := List.mem_map.mp ((List.dropWhile_sublist whole).subset hcm)
        cases h0 : c0.place with
        | none => simpa only [h0] using hq c0 hc0 h0
        | some o => simp only [h0] at hplace; cases hplace
      have hstill : ∀ u : State, u.clip = A.clip → u.buffer = A.buffer → u.settleClip = u := fun u h1 h2 =>
        State.settleClip_recording (f := { f with front := f.front + 1 }) (h1 ▸ hfillA) (by rw [h1, ← hA]; exact hc) hp (by rw [h2]; exact hqA)
      rw [hstill A rfl rfl] at hexec
      obtain ⟨cardN, hN, k1, k2, k3⟩ := A.nextBlock_frame next
      have hsettled : (A.nextBlock next).settleClip = A.nextBlock next := hstill _ (by rw [hN]) (by rw [hN])
      obtain ⟨hclip, -⟩ := (A.nextBlock next).conclude_outcome
      obtain ⟨hcardT, hold, dl, e, hbuf⟩ := (A.nextBlock next).conclude_buffer
      rw [hsettled] at hclip hbuf
      have hclipT : (A.nextBlock next).conclude.clip = A.clip := by rw [hclip, hN]
      have hbufT : (A.nextBlock next).conclude.buffer =
          { A.buffer with hold := hold, latDeadline := dl, latExpired := e } := by rw [hbuf, hN]
      have hbytes : ∀ p, (A.nextBlock next).conclude.streamByte f p =
          A.streamByte { f with front := f.front + 1 } p :=
        fun p => State.streamByte_congr (by rw [hbufT]) (by rw [hbufT]) rfl p
      have hslots : ∀ j, (A.clip.slot j).first = (s.clip.slot j).first ∧ (A.clip.slot j).count = (s.clip.slot j).count := by
        intro j
        have hset := s.clip.setSlot_slot f.slot j
        rw [← hA]
        cases gone.getLast? with
        | none => exact ⟨rfl, rfl⟩
        | some c =>
          refine ⟨(congrArg Slot.first (hset _)).trans ?_, (congrArg Slot.count (hset _)).trans ?_⟩
          all_goals
            split
            · rename_i hj
              rw [← hj.1]
            · rfl
      have hmayA : may A { f with front := f.front + 1 } (r.acked + 1) ↔ may s f (r.acked + 1) := by
        simp only [may, hslots]
        rw [← hA]
      have hgo := hmay A { f with front := f.front + 1 } next hfillA rfl rfl rfl rfl
      refine ⟨_, hexec, hclipT ▸ hfillA, ?_, ?_, ?_, ?_, ?_, ?_, ?_, ?_, ?_, fun hm => ?_, fun hm => ?_⟩
      · rw [hbufT, ← hA]
      · rw [hbufT, ← hA]
      · rw [hbufT, ← hA]
      · rw [hbufT, ← hA]
      · intro h0
        rw [hclipT, ← hA]
        simp only [h0]
        rfl
      · intro c rest h0
        rw [hclipT, ← hA]
        simp only [h0, List.getLast?_concat]
      · rw [hcardT, hN, k1, ← hA]
      · rw [hcardT, hN, k2, ← hA]
      · rw [hcardT, hN, k3, ← hA]
      · have hsent := State.nextBlock_sent hfillA (hgo.mpr (hmayA.mpr hm))
        rw [hcardT]
        simp only [hbytes]
        rw [hsent, ← hA]
        exact ⟨rfl, rfl⟩
      · have hclosed := State.nextBlock_closes (s := A) (r := next) (fun _ k => hm (hmayA.mp (hgo.mp k)))
        rw [hcardT, hclosed, ← hA]
        exact ⟨rfl, rfl⟩

end Sys2Proof.Machine
end


section
/-! SUPPORT. The stage decision of an update (section 8.5): the tests of every stage, the hold causes, the ceiling. -/
namespace Sys2Proof.Machine

/-! ### Entering a stage (R128) -/

/-- A stage entered, field by field. -/
theorem State.enterStage_eq (u : State) (x : Stage) (e : Nat) (f : Option ChargeFault) :
    u.enterStage x e f = State.raiseIf { u with
        charge := { u.charge with
          stage := x, runCount := 0, elapsed := e, fault := f
          safety := if x = .qualify then 0 else u.charge.safety
          causes := if x = .fault then { u.charge.causes with overVoltage := false } else u.charge.causes
          ovLimit := if x = .fault then none else u.charge.ovLimit }
        budget := u.budget.onEnter x }
      (decide (x = .full ∨ x = .hold ∨ x = .fault))
      (.chargeState x f (if x = .hold then u.charge.causes else .clear) u.budget.readings.vbat) := by
  cases x <;> rfl

/-! ### The parts of the decision (R128) -/

theorem Stage.isFast_iff (x : Stage) : x.isFast = true ↔ x = .fast ∨ x = .taper ∨ x = .topOff := by
  cases x <;> simp [Stage.isFast]

/-- The charge controller with another E. -/
def State.withSafety (s : State) (n : Nat) : State := { s with charge := { s.charge with safety := n } }

/-- E as an update leaves it before any stage is entered (R140). -/
theorem State.addSafety_eq (s : State) : s.addSafety = s.withSafety
    (if s.charge.stage = .fast ∨ s.charge.stage = .taper ∨ s.charge.stage = .topOff then
      s.charge.safety + s.budget.inForce.toNat else s.charge.safety) := by
  unfold State.addSafety
  simp only [Stage.isFast_iff]
  split <;> rfl

section
variable {s : State} {n : Nat} (hin : s.budget.inputPresent = true) (hn : s.addSafety = s.withSafety n)
include hin hn

/-- E at its limit takes a fast stage to FAULT. -/
theorem State.decideStage_timer (hf : s.charge.stage.isFast = true) (hl : s.charge.profile.safetyLimit ≤ (n : Int)) :
    s.decideStage = (s.withSafety n).enterStage .fault 0 (some .timer) := by
  have hi : s.charge.stage ≠ .idle := by rintro h; rw [h] at hf; exact absurd hf (by decide)
  refine (if_neg hi).trans ((if_pos hin).trans ?_)
  unfold State.decideCharging
  simp only [hn]
  refine if_pos ?_
  show (s.charge.stage.isFast && decide (s.charge.profile.safetyLimit ≤ (n : Int))) = true
  rw [hf, decide_eq_true hl]
  rfl

/-- Below its limit E leaves the decision to the hold causes and the stage's own test. -/
theorem State.decideStage_charging (hi : s.charge.stage ≠ .idle)
    (hl : s.charge.stage.isFast = true → (n : Int) < s.charge.profile.safetyLimit) :
    s.decideStage =
      if s.charge.stage = .hold then
        if s.charge.causes.any then s.withSafety n else (s.withSafety n).leaveHold
      else if s.charge.stage.isHoldable && s.charge.causes.any then (s.withSafety n).enterHold
      else (s.withSafety n).stageTest := by
  refine (if_neg hi).trans ((if_pos hin).trans ?_)
  unfold State.decideCharging
  simp only [hn]
  refine if_neg ?_
  show ¬(s.charge.stage.isFast && decide (s.charge.profile.safetyLimit ≤ (n : Int))) = true
  rw [Bool.and_eq_true, decide_eq_true_eq]
  rintro ⟨h1, h2⟩
  have := hl h1
  omega

/-- With no hold cause standing a stage other than IDLE and HOLD takes its own test. -/
theorem State.decideStage_test (hi : s.charge.stage ≠ .idle) (hh : s.charge.stage ≠ .hold)
    (hc : s.charge.causes.any = false) (hl : s.charge.stage.isFast = true → (n : Int) < s.charge.profile.safetyLimit) :
    s.decideStage = (s.withSafety n).stageTest := by
  rw [State.decideStage_charging hin hn hi hl, if_neg hh, hc, Bool.and_false]
  rfl

end

/-- The own test of a stage, by the stage. -/
theorem State.stageTest_of {s : State} : ∀ {x : Stage}, s.charge.stage = x → s.stageTest = match x with
    | .qualify => s.testQualify
    | .precharge => s.testPrecharge
    | .fast => s.testFast
    | .taper => s.testTaper
    | .topOff => s.testTopOff
    | .full => s.testFull
    | .idle | .hold | .fault => s := by
  rintro _ rfl
  rfl

/-! ### Zone, die level and hold causes (R126, R127, R135, R136) -/

theorem ChargeController.judgesVoltage_iff (c : ChargeController) : c.judgesVoltage = true ↔
    c.stage = .fast ∨ c.stage = .taper ∨ c.stage = .topOff ∨ c.stage = .hold ∧ c.resume = .fast := by
  unfold ChargeController.judgesVoltage
  rw [Bool.or_eq_true, Bool.and_eq_true, decide_eq_true_eq, decide_eq_true_eq, Stage.isFast_iff, or_assoc, or_assoc]

/-- OVER_VOLTAGE set: the cell above the zone's limit in a stage that is judged. -/
theorem ChargeController.overVoltage_set {c : ChargeController} {b : Bool} {v l : Int} (hj : c.judgesVoltage = true)
    (hz : c.profile.zoneVoltage c.zone = some l) (hv : l < v) : c.overVoltage b v = some l := by
  unfold ChargeController.overVoltage
  simp only [hz]
  rw [hj, decide_eq_true hv]
  rfl

/-- OVER_VOLTAGE not set afresh: what stood of it stays until 100 mV below its limit or a change of zone. -/
theorem ChargeController.overVoltage_kept {c : ChargeController} {b : Bool} {v : Int}
    (h : ¬(c.judgesVoltage = true ∧ ∃ l, c.profile.zoneVoltage c.zone = some l ∧ l < v)) :
    ((c.overVoltage b v).isSome = true ↔ c.causes.overVoltage = true ∧ b = false ∧ ∃ l, c.ovLimit = some l ∧ l - 100 ≤ v) ∧
    ((c.overVoltage b v).isSome = true → c.overVoltage b v = c.ovLimit) := by
  have hk : c.overVoltage b v = match c.ovLimit with
      | some l => if !c.causes.overVoltage || b || decide (v < l - 100) then none else some l
      | none => none := by
    unfold ChargeController.overVoltage
    cases hz : c.profile.zoneVoltage c.zone with
    | none => rfl
    | some l =>
      refine if_neg fun k => h ?_
      obtain ⟨hj, hv⟩ := Bool.and_eq_true_iff.mp k
      exact ⟨hj, l, hz, of_decide_eq_true hv⟩
  rw [hk]
  cases c.ovLimit with
  | none => simp
  | some l => cases c.causes.overVoltage <;> cases b <;> by_cases hv : v < l - 100 <;> simp [hv] <;> omega

/-- Settles O52: the decision part by part, the causes, the ceiling. -/
theorem qualifyAndFastTests : Obligations.QualifyAndFastTests := by
  refine ⟨?_, ?_, ?_⟩
  · intro s v t fast sum holdable entered resume counts
    have hadd := s.addSafety_eq
    have hfast : s.charge.stage.isFast = true ↔ fast := Stage.isFast_iff _
    have enters {x e f r} {n : Nat} {cs : HoldCauses} {ov : Option Int}
        (ht : t = State.enterStage
          { s with charge := { s.charge with safety := n, causes := cs, ovLimit := ov, resume := r } } x e f)
        (hs : (if x = .qualify then 0 else n) = if x = .qualify ∨ s.charge.stage = .full ∧ x = .fast then 0
          else if fast ∧ s.budget.inputPresent = true then sum else s.charge.safety)
        (hcs : cs = if s.budget.inputPresent = false then { HoldCauses.clear with inhibit := s.charge.causes.inhibit }
          else s.charge.causes)
        (hov : ov = if s.budget.inputPresent = false then none else s.charge.ovLimit)
        (hx : s.budget.inputPresent = false → x = .idle) : entered x e f r := by
      have hc : (if x = .fault then { cs with overVoltage := false } else cs) =
          if s.budget.inputPresent = false then { HoldCauses.clear with inhibit := s.charge.causes.inhibit }
          else if x = .fault then { s.charge.causes with overVoltage := false } else s.charge.causes := by
        by_cases h : s.budget.inputPresent = false
        · rw [hcs, if_pos h, if_pos h, hx h]; rfl
        · rw [hcs, if_neg h, if_neg h]
      have ho : (if x = .fault then none else ov) =
          if x = .fault ∨ s.budget.inputPresent = false then none else s.charge.ovLimit := by
        rw [hov, ite_or]
      have hn : (if x = .hold then cs else .clear) = if x = .hold then s.charge.causes else .clear := by
        by_cases h : s.budget.inputPresent = false
        · rw [hx h]; rfl
        · rw [hcs, if_neg h]
      refine ht.trans ((State.enterStage_eq _ x e f).trans ?_)
      rw [Budget.onEnter_eq]
      dsimp only
      rw [hs, hc, ho, hn]
    refine ⟨fun hin => ⟨fun hst => ?_, fun hst => ?_⟩, fun hin => ?_⟩
    · refine (if_pos hst).trans (if_neg ?_)
      rw [hin]; decide
    · refine enters ((if_neg hst).trans (if_neg ?_)) ?_ ?_ ?_ fun _ => rfl
      · rw [hin]; decide
      · rw [if_neg nofun, if_neg (by rintro (h | ⟨-, h⟩) <;> cases h), if_neg (by rw [hin]; simp)]
      · rw [if_pos hin]
      · rw [if_pos hin]
    -- the input is PRESENT
    have hoff : ¬s.budget.inputPresent = false := by rw [hin]; decide
    let n := if fast then sum else s.charge.safety
    have hn : s.addSafety = s.withSafety n := hadd
    have counted {x e f r} (h : s.charge.stage = .full → x ≠ .fast)
        (ht : t = State.enterStage { s with charge := { s.charge with safety := n, resume := r } } x e f) :
        entered x e f r := by
      refine enters ht ?_ (if_neg hoff).symm (if_neg hoff).symm fun k => absurd k hoff
      refine if_congr ?_ rfl (if_congr ?_ rfl rfl)
      · exact ⟨.inl, fun k => k.resolve_right fun ⟨h1, h2⟩ => h h1 h2⟩
      · rw [hin]; simp
    have below (hl : fast → (sum : Int) < s.charge.profile.safetyLimit) :
        s.charge.stage.isFast = true → (n : Int) < s.charge.profile.safetyLimit := fun h => by
      have hf := hfast.mp h
      show ((if fast then sum else s.charge.safety : Nat) : Int) < _
      rw [if_pos hf]
      exact hl hf
    have still (h : ¬fast) : s.withSafety n = s := congrArg s.withSafety (if_neg h)
    have reaches (hi : s.charge.stage ≠ .idle) (hl : fast → (sum : Int) < s.charge.profile.safetyLimit) :=
      State.decideStage_charging hin hn hi (below hl)
    refine ⟨fun hst => ?_, fun hf hl => ?_, fun hc => ⟨fun hst => ?_, fun hst => ?_⟩, fun hc hl => ?_⟩
    · have hf : ¬fast := by simp [fast, hst]
      refine (reaches (by simp [hst]) fun k => absurd k hf).trans ?_
      rw [if_neg (by simp [hst]), if_neg (by simp [hst, Stage.isHoldable]), still hf]
      exact State.stageTest_of hst
    · refine counted (r := resume) (by simp) (State.decideStage_timer hin hn (hfast.mpr hf) ?_)
      show _ ≤ ((if fast then sum else s.charge.safety : Nat) : Int)
      rw [if_pos hf]
      exact hl
    · have hf : ¬fast := by simp [fast, hst]
      refine (reaches (by simp [hst]) fun k => absurd k hf).trans ?_
      rw [if_pos hst, if_pos hc, still hf]
    · suffices h : entered .hold (if s.charge.stage = .precharge then s.charge.elapsed else 0) none
          (if s.charge.causes.profile = true then .qualify else s.charge.stage.resumeStage) by
        rw [Stage.resumeStage_eq] at h
        exact h
      refine counted (by simp) ?_
      rcases hst with hst | ⟨⟨h1, h2, h3⟩, hl⟩
      · have hf : ¬fast := by simp [fast, hst]
        refine ((if_pos hst).trans ((if_pos hin).trans (if_pos hc))).trans ?_
        rw [← still hf]
        rfl
      · refine (reaches h1 hl).trans ?_
        rw [if_neg h2, if_pos (by rw [hc, (Stage.isHoldable_iff _).mpr ⟨h1, h2, h3⟩]; rfl)]
        rfl
    have tests {x} (hst : s.charge.stage = x) (h1 : x ≠ .idle) (h2 : x ≠ .hold) : t = (s.withSafety n).stageTest :=
      State.decideStage_test hin hn (hst ▸ h1) (hst ▸ h2) hc (below hl)
    have own {x} (hst : s.charge.stage = x) (h1 : x ≠ .idle) (h2 : x ≠ .hold) :=
      (tests hst h1 h2).trans (State.stageTest_of (s := s.withSafety n) hst)
    refine ⟨fun hst => ⟨?_, ?_⟩, fun hst => ?_, fun hst => ?_, ?_, ?_, ?_, ?_, ?_⟩
    · have hf : ¬fast := by simp [fast, hst]
      refine counted (by simp) (((if_pos hst).trans ((if_pos hin).trans (if_neg (by simp [hc])))).trans ?_)
      rw [show n = s.charge.safety from if_neg hf]
    · have ht : t = s.enterStage .qualify 0 none := (if_pos hst).trans ((if_pos hin).trans (if_neg (by simp [hc])))
      rw [ht]
      exact ChargeController.stageCeiling_rest rfl
    · refine counted (by simp [hst]) ((reaches (by simp [hst]) hl).trans ?_)
      rw [if_pos hst, if_neg (by simp [hc])]
      rfl
    · have ht := own hst nofun nofun
      refine ⟨fun h => ht.trans (if_pos h), fun h => ?_⟩
      have ht := ht.trans (if_neg (not_lt.mpr h))
      have inRange (h1 : 2000 ≤ v) (h2 : v ≤ 4500) : ¬(v < 2000 ∨ 4500 < v) := by omega
      refine ⟨fun hv => counted (by simp) (ht.trans (if_pos hv)), fun h1 h2 hv => counted (by simp) ?_,
        fun h1 h2 hv => counted (by simp [hst]) ?_⟩
      · exact (ht.trans (if_neg (inRange h1 h2))).trans (if_pos hv)
      · exact (ht.trans (if_neg (inRange h1 h2))).trans (if_neg (not_lt.mpr hv))
    · intro hst run timeUp
      have ht := own hst nofun nofun
      refine ⟨fun h => counted (by simp [hst]) (ht.trans (if_pos h)), fun h hup => counted (by simp) ?_, fun h hup => ?_⟩
      · exact (ht.trans (if_neg (not_le.mpr h))).trans (if_pos hup)
      · exact (ht.trans (if_neg (not_le.mpr h))).trans (if_neg hup)
    · intro l hst hz run
      have ht : t = if 10 ≤ run then (s.withSafety n).enterStage .taper 0 none
          else (s.withSafety n).setCounts run s.charge.elapsed := by
        refine (own hst nofun nofun).trans ?_
        unfold State.testFast
        rw [show (s.withSafety n).charge.profile.zoneVoltage (s.withSafety n).charge.zone = some l from hz]
        rfl
      exact ⟨fun h => counted (by simp) (ht.trans (if_pos h)), fun h => ht.trans (if_neg (not_le.mpr h))⟩
    · intro hst term run
      have ht := own hst nofun nofun
      exact ⟨fun h => counted (by simp) (ht.trans (if_pos h)), fun h => ht.trans (if_neg (not_le.mpr h))⟩
    · intro hst timeUp
      have ht := own hst nofun nofun
      exact ⟨fun h => counted (by simp) (ht.trans (if_pos h)), fun h => ht.trans (if_neg h)⟩
    · intro l hst hz
      have hf : ¬fast := by simp [fast, hst]
      have ht : t = if s.budget.readings.vbat < l - s.charge.profile.rechargeDrop then
          State.enterStage { s with charge := { s.charge with safety := 0 } } .fast 0 none else s := by
        refine (own hst nofun nofun).trans ?_
        rw [still hf]
        show s.testFull = _
        unfold State.testFull
        rw [hz]
      refine ⟨fun h => enters (n := 0) (r := resume) (ht.trans (if_pos h)) ?_ (if_neg hoff).symm (if_neg hoff).symm
        fun k => absurd k hoff, fun h => ht.trans (if_neg (not_lt.mpr h))⟩
      exact (if_neg nofun).trans (if_pos (.inr ⟨hst, rfl⟩)).symm
  · intro c r zone after judged
    let moved : ChargeController := { c with
      zone := some zone, die := settleDie c.profile c.die r.tdie
      runCount := if decide (c.zone ≠ some zone) && (decide (c.stage = Stage.fast) || decide (c.stage = Stage.taper)) then 0
        else c.runCount }
    have hj : moved.judgesVoltage = true ↔ judged := moved.judgesVoltage_iff
    have hov : after.ovLimit = moved.overVoltage (decide (c.zone ≠ some zone)) r.vbat := rfl
    refine ⟨rfl, rfl, rfl, rfl, rfl, fun h1 h2 => ?_, fun l h1 h2 h3 => ?_, fun h => ?_⟩
    · refine if_pos ?_
      simp [show c.zone ≠ some (settleZone c.profile c.zone r.tbat) from h1, h2]
    · have hset := ChargeController.overVoltage_set (b := decide (c.zone ≠ some zone)) (hj.mpr h1) h2 h3
      exact ⟨congrArg Option.isSome hset, hset⟩
    · obtain ⟨h1, h2⟩ := ChargeController.overVoltage_kept (c := moved) (b := decide (c.zone ≠ some zone))
        (fun k => h ⟨hj.mp k.1, k.2⟩)
      refine ⟨h1.trans ?_, h2⟩
      rw [decide_eq_false_iff_not, not_not]
  · intro c zone full
    unfold ChargeController.stageCeiling
    have hz : c.profile.zoneCurrent c.zone = zone := by
      unfold ChargeProfile.zoneCurrent
      cases hz : c.zone with
      | none => simp [zone, hz]
      | some z => cases z <;> simp [zone, hz]
    rw [hz]
    cases hc : c.stage <;> simp only [full, hc]

end Sys2Proof.Machine
end


section
/-! SUPPORT. The monitor update (section 9.1): the input, the gauge, the setpoint, the low-power test, and what the
stage decision takes from the budget. -/
namespace Sys2Proof.Machine

/-! ### The input (R124) -/

/-- The input state settled from VIN: only the presence and its run change. -/
theorem Budget.settleInput_eq (b : Budget) (vin : Int) : ∃ present run,
    b.settleInput vin = { b with inputPresent := present, presenceRun := run } ∧
    (b.inputPresent = true → (present = true ↔ b.cfg.absentMv ≤ vin)) ∧
    (b.inputPresent = false → (present = true ↔ b.cfg.presentMv ≤ vin ∧ 2 ≤ b.presenceRun)) := by
  unfold Budget.settleInput
  cases hp : b.inputPresent
  · rw [if_neg (by decide)]
    split <;> rename_i hv
    · split <;> rename_i hr
      · exact ⟨true, 0, rfl, nofun, fun _ => iff_of_true rfl ⟨hv, by omega⟩⟩
      · exact ⟨false, _, by rw [← hp], nofun, fun _ => iff_of_false nofun fun ⟨_, h⟩ => by omega⟩
    · exact ⟨false, 0, by rw [← hp], nofun, fun _ => iff_of_false nofun fun ⟨h, _⟩ => hv h⟩
  · rw [if_pos rfl]
    split <;> rename_i hv
    · exact ⟨false, b.presenceRun, rfl, fun _ => iff_of_false nofun (not_le.mpr hv), nofun⟩
    · exact ⟨true, b.presenceRun, by rw [← hp], fun _ => iff_of_true rfl (not_lt.mp hv), nofun⟩

/-! ### The gauge (R152, R153) -/

/-- The gauge's part of an update: only the charge and the request for an estimate change. -/
theorem Budget.gaugeUpdate_eq (b : Budget) : b.gaugeUpdate = { b with
    charge := if b.estimateDue = true then b.estimate b.readings.vbat
      else min ((b.charge : Int) + b.readings.ibat).toNat (b.cfg.capacity.toNat * 360000)
    estimateDue := false } := by
  unfold Budget.gaugeUpdate Budget.count BudgetCfg.fullCharge
  split <;> rename_i h
  · rfl
  · rw [← Bool.eq_false_iff.mpr h]

/-- The OCV segment of a voltage in a rising table. -/
theorem ocvSegment_eq {v : Int} : ∀ {l : List Int} {k i : Nat}, l.Pairwise (· < ·) → i + 1 < l.length →
    l.getD i 0 ≤ v → v < l.getD (i + 1) 0 →
    ocvSegment v k l = some (k + i, l.getD i 0, l.getD (i + 1) 0 - l.getD i 0)
  | [], _, _, _, hi, _, _ => absurd hi (by simp)
  | [_], _, _, _, hi, _, _ => absurd hi (by simp)
  | a :: b :: rest, k, 0, _, _, h1, h2 => if_pos ⟨h1, h2⟩
  | a :: b :: rest, k, i + 1, hl, hi, h1, h2 => by
    have hb : b ≤ (b :: rest).getD i 0 := by
      cases i with
      | zero => exact le_rfl
      | succ j =>
        have hj : j < rest.length := by simp only [List.length_cons] at hi; omega
        refine le_of_lt ((List.pairwise_cons.mp (List.pairwise_cons.mp hl).2).1 _ ?_)
        rw [List.getD_cons_succ, List.getD_eq_getElem _ _ hj]
        exact List.getElem_mem hj
    have hb' : ¬(a ≤ v ∧ v < b) := fun h => by
      have : (b :: rest).getD i 0 ≤ v := h1
      omega
    refine (if_neg hb').trans ((ocvSegment_eq (List.pairwise_cons.mp hl).2 (by simpa using hi) h1 h2).trans ?_)
    rw [Nat.add_assoc, Nat.add_comm 1 i]
    rfl

/-! ### The setpoint and the grant (R147, R148, R150) -/

/-- The setpoint moved: only it, the effective limit and the updates since the last rise change. -/
theorem Budget.moveSetpoint_eq (b : Budget) (p : ChargeProfile) (c : Int) : ∃ v since,
    b.moveSetpoint p c = { b with
      limitEff := b.effectiveLimit, sinceRise := since, setpoint := v, inForce := v } ∧
    (b.effectiveLimit < b.readings.iin ∨ b.readings.vin < b.cfg.vinMin →
      v = max (min b.setpoint c - p.backOff) 0) ∧
    (b.readings.iin ≤ b.effectiveLimit → b.cfg.vinMin ≤ b.readings.vin →
      (b.readings.iin < b.effectiveLimit - b.cfg.band ∧
          waitedEnough (b.sinceRise.map fun n => min (n + 1) 100) p.rampUpdates = true ∧ b.grant = .none ∧
          min b.setpoint c < c → v = min (min b.setpoint c + p.rampStep) c) ∧
      (¬(b.readings.iin < b.effectiveLimit - b.cfg.band ∧
          waitedEnough (b.sinceRise.map fun n => min (n + 1) 100) p.rampUpdates = true ∧ b.grant = .none ∧
          min b.setpoint c < c) → v = min b.setpoint c)) := by
  unfold Budget.moveSetpoint
  simp only
  split <;> rename_i h1
  · exact ⟨_, _, rfl, fun _ => rfl, fun h2 h3 => absurd h1 (by omega)⟩
  · split <;> rename_i h2
    · exact ⟨_, _, rfl, fun h => absurd h h1, fun _ _ => ⟨fun _ => rfl, fun h => absurd h2 h⟩⟩
    · exact ⟨_, _, rfl, fun h => absurd h h1, fun _ _ => ⟨fun h => absurd h h2, fun _ => rfl⟩⟩

/-- The grant at the end of an update: only it changes. -/
theorem Budget.decideGrant_eq (b : Budget) : ∃ g, b.decideGrant = { b with grant := g } ∧
    (b.grant = .pending → (g = .held ↔ b.readings.iin ≤ b.limitEff ∨ b.setpoint = 0 ∨ b.inputPresent = false)) ∧
    (b.grant ≠ .pending → g = b.grant) := by
  unfold Budget.decideGrant
  split <;> rename_i h
  · exact ⟨.held, rfl, fun _ => iff_of_true rfl h.2, fun k => absurd h.1 k⟩
  · refine ⟨b.grant, rfl, fun k => iff_of_false (by rw [k]; decide) fun j => h ⟨k, j⟩, fun _ => rfl⟩

/-! ### The low-power test (R155) -/

theorem Budget.lowCondition_iff (b : Budget) : b.lowCondition = true ↔ b.inputPresent = false ∧
    (b.charge ≤ b.cfg.closeReserve.toNat * 360000 ∨ b.readings.vbat ≤ b.cfg.cutoff) := by
  simp [Budget.lowCondition, Budget.chargeLow, Budget.voltageLow]

/-- Whether the low-power test warns: the fifth low update in a row or one after it, with no clip open and the low
state not set, or a clip open and none ordered closed. -/
def State.lowWarned (s : State) : Bool :=
  s.budget.lowCondition && decide (4 ≤ s.budget.lowRun) &&
    (if s.clip.state.isOpen = true then !s.budget.ordered else !s.budget.lowState)

/-- The low-power test whole. -/
theorem State.lowTest_eq (s : State) : s.lowTest = State.raiseIf { s with
    budget := { s.budget with
      lowRun := if s.budget.lowCondition = true then min (s.budget.lowRun + 1) 5 else 0
      lowState := s.budget.lowCondition && (s.budget.lowState || s.lowWarned)
      ordered := s.budget.ordered || s.lowWarned && s.clip.state.isOpen
      orderPending := s.budget.orderPending || s.lowWarned && s.clip.state.isOpen } }
    s.lowWarned (s.budget.powerLow s.clip.state.isOpen) := by
  unfold State.lowTest Budget.judgeLow
  cases hl : s.budget.lowCondition
  · have hw : s.lowWarned = false := by unfold State.lowWarned; rw [hl]; rfl
    simp only [Bool.false_eq_true, if_false, hw, Bool.false_and, Bool.or_false]
    rfl
  · simp only [if_true, Bool.true_and]
    by_cases hr : 4 ≤ s.budget.lowRun
    · rw [if_neg (by omega)]
      cases ho : s.clip.state.isOpen
      · have hw : s.lowWarned = !s.budget.lowState := by
          unfold State.lowWarned; rw [hl, ho, decide_eq_true hr]; rfl
        rw [hw]
        cases hs : s.budget.lowState
        · simp [State.raiseIf, Budget.powerLow, Budget.percent, Budget.lowCause, Budget.chargeLow, Budget.voltageLow]
        · simp [State.raiseIf]
      · have hw : s.lowWarned = !s.budget.ordered := by
          unfold State.lowWarned; rw [hl, ho, decide_eq_true hr]; rfl
        rw [hw]
        cases hs : s.budget.ordered
        · simp [State.raiseIf, Budget.powerLow, Budget.percent, Budget.lowCause, Budget.chargeLow, Budget.voltageLow]
        · simp [State.raiseIf]
    · have hw : s.lowWarned = false := by unfold State.lowWarned; rw [decide_eq_false hr, Bool.and_false]; rfl
      rw [if_pos (by omega), hw]
      simp [State.raiseIf]

/-! ### What the stage decision takes from the budget (R128) -/

/-- Another budget with the readings, the input state and the setpoint in force of this one. -/
def Budget.judgedAs (b : Budget) (a : Budget) : Budget :=
  { b with readings := a.readings, inputPresent := a.inputPresent, inForce := a.inForce }

/-- `t'` is to `t` what a decision over the budget `b` is to one over the budget of `s`: it differs in the budget
alone, which is `b`, or `b` as the stage of `t` is entered; zone, die level and profile stay. -/
structure State.DecidesAlike (s : State) (b : Budget) (t t' : State) : Prop where
  alike : t' = { t with budget := t'.budget }
  budget : t'.budget = b ∧ t.charge.stage = s.charge.stage ∨
    t'.budget = b.onEnter t.charge.stage ∧ (t.charge.stage = .full → s.charge.stage ≠ .full)
  zone : t.charge.zone = s.charge.zone
  die : t.charge.die = s.charge.die
  profile : t.charge.profile = s.charge.profile

namespace State.DecidesAlike
variable {s : State} {b : Budget}

/-- No stage entered. -/
theorem stay {c : ChargeController} (h1 : c.stage = s.charge.stage) (h2 : c.zone = s.charge.zone)
    (h3 : c.die = s.charge.die) (h4 : c.profile = s.charge.profile) :
    s.DecidesAlike b { s with charge := c } { s with charge := c, budget := b } := ⟨rfl, .inl ⟨rfl, h1⟩, h2, h3, h4⟩

/-- A stage entered. -/
theorem enter {c : ChargeController} {x : Stage} {e : Nat} {f : Option ChargeFault}
    (h1 : x = .full → s.charge.stage ≠ .full) (h2 : c.zone = s.charge.zone) (h3 : c.die = s.charge.die)
    (h4 : c.profile = s.charge.profile) :
    s.DecidesAlike (b.judgedAs s.budget) (State.enterStage { s with charge := c } x e f)
      (State.enterStage { s with charge := c, budget := b.judgedAs s.budget } x e f) := by
  rw [State.enterStage_eq, State.enterStage_eq]
  cases x
  all_goals exact ⟨rfl, .inr ⟨rfl, h1⟩, h2, h3, h4⟩

theorem ite {p : Prop} [Decidable p] {t t' u u' : State} (h1 : p → s.DecidesAlike b t t')
    (h2 : ¬p → s.DecidesAlike b u u') : s.DecidesAlike b (if p then t else u) (if p then t' else u') := by
  by_cases h : p
  · rw [if_pos h, if_pos h]; exact h1 h
  · rw [if_neg h, if_neg h]; exact h2 h

end State.DecidesAlike

theorem State.testFast_eq (u : State) : u.testFast =
    (u.charge.profile.zoneVoltage u.charge.zone).elim u fun l =>
      if 10 ≤ (if l - 20 ≤ u.budget.readings.vbat then u.charge.runCount + 1 else 0) then u.enterStage .taper 0 none
      else u.setCounts (if l - 20 ≤ u.budget.readings.vbat then u.charge.runCount + 1 else 0) u.charge.elapsed := by
  unfold State.testFast
  cases u.charge.profile.zoneVoltage u.charge.zone <;> rfl

theorem State.testFull_eq (u : State) : u.testFull =
    (u.charge.profile.zoneVoltage u.charge.zone).elim u fun l =>
      if u.budget.readings.vbat < l - u.charge.profile.rechargeDrop then
        State.enterStage { u with charge := { u.charge with safety := 0 } } .fast 0 none
      else u := by
  unfold State.testFull
  cases u.charge.profile.zoneVoltage u.charge.zone <;> rfl

theorem State.DecidesAlike.elim {s : State} {b : Budget} {t t' : State} {f f' : Int → State} (o : Option Int)
    (h1 : s.DecidesAlike b t t') (h2 : ∀ l, s.DecidesAlike b (f l) (f' l)) :
    s.DecidesAlike b (o.elim t f) (o.elim t' f') := by
  cases o with
  | none => exact h1
  | some l => exact h2 l

/-- The stage's own test over another budget. -/
theorem State.stageTest_alike (s : State) (b : Budget) (n : Nat) : s.DecidesAlike (b.judgedAs s.budget)
    (s.withSafety n).stageTest (State.withSafety { s with budget := b.judgedAs s.budget } n).stageTest := by
  have own {x} (h : s.charge.stage = x) := State.stageTest_of (s := s.withSafety n) h
  have own' {x} (h : s.charge.stage = x) :=
    State.stageTest_of (s := State.withSafety { s with budget := b.judgedAs s.budget } n) h
  have stays {r e : Nat} : s.DecidesAlike (b.judgedAs s.budget) ((s.withSafety n).setCounts r e)
      ((State.withSafety { s with budget := b.judgedAs s.budget } n).setCounts r e) := .stay rfl rfl rfl rfl
  have same : s.DecidesAlike (b.judgedAs s.budget) (s.withSafety n)
      (State.withSafety { s with budget := b.judgedAs s.budget } n) := .stay rfl rfl rfl rfl
  cases hst : s.charge.stage <;> rw [own hst, own' hst]
  case qualify =>
    exact .ite (fun _ => stays) fun _ => .ite (fun _ => .enter nofun rfl rfl rfl) fun _ =>
      .ite (fun _ => .enter nofun rfl rfl rfl) fun _ => .enter nofun rfl rfl rfl
  case precharge =>
    exact .ite (fun _ => .enter nofun rfl rfl rfl) fun _ => .ite (fun _ => .enter nofun rfl rfl rfl) fun _ => stays
  case fast =>
    rw [State.testFast_eq, State.testFast_eq]
    exact .elim _ same fun l => .ite (fun _ => .enter nofun rfl rfl rfl) fun _ => stays
  case taper => exact .ite (fun _ => .enter nofun rfl rfl rfl) fun _ => stays
  case topOff => exact .ite (fun _ => .enter (fun _ => by rw [hst]; nofun) rfl rfl rfl) fun _ => stays
  case full =>
    rw [State.testFull_eq, State.testFull_eq]
    exact .elim _ same fun l => .ite (fun _ => .enter nofun rfl rfl rfl) fun _ => same
  all_goals exact same

/-- The stage decision over another budget. -/
theorem State.decideStage_alike (s : State) (b : Budget) : s.DecidesAlike (b.judgedAs s.budget)
    s.decideStage (State.decideStage { s with budget := b.judgedAs s.budget }) := by
  unfold State.decideStage
  refine .ite (fun hi => ?_) fun hi => .ite (fun _ => ?_) fun _ => .enter nofun rfl rfl rfl
  · exact .ite (fun _ => .ite (fun _ => .enter nofun rfl rfl rfl) fun _ => .enter nofun rfl rfl rfl)
      fun _ => .stay rfl rfl rfl rfl
  · unfold State.decideCharging
    rw [State.addSafety_eq, State.addSafety_eq]
    exact .ite (fun _ => .enter nofun rfl rfl rfl) fun _ =>
      .ite (fun hh => .ite (fun _ => .stay rfl rfl rfl rfl) fun _ => .enter (fun _ h => nomatch hh.symm.trans h) rfl rfl rfl)
        fun _ => .ite (fun _ => .enter nofun rfl rfl rfl) fun _ => s.stageTest_alike b _

end Sys2Proof.Machine
end


section
/-! SUPPORT. The monitor update whole, from its parts (section 9.1). -/
namespace Sys2Proof.Machine

/-! ### Notices and packets over another charge controller and budget -/

/-- A state with another charge controller and another budget. -/
def State.withPower (s : State) (c : ChargeController) (b : Budget) : State := { s with charge := c, budget := b }

theorem State.raiseIf_withPower (s : State) (c : ChargeController) (b : Budget) (x : Bool) (n : Notice) :
    (s.withPower c b).raiseIf x n = (s.raiseIf x n).withPower c b := by
  cases x <;> rfl

/-- The arbiter looks at neither. -/
theorem State.arbitrate_withPower (s : State) (c : ChargeController) (b : Budget) :
    (s.withPower c b).arbitrate = s.arbitrate.withPower c b := by
  unfold State.arbitrate
  by_cases h : (s.link.sending.isSome || s.pins.reset) = true
  · exact (if_pos h).trans (congrArg (fun u : State => u.withPower c b) (if_pos h).symm)
  · refine (if_neg h).trans (.trans ?_ (congrArg (fun u : State => u.withPower c b) (if_neg h).symm))
    have hn : (s.withPower c b).sendNotice = s.sendNotice.withPower c b := by
      unfold State.sendNotice State.withPower
      cases s.link.notices <;> rfl
    have ha : (s.withPower c b).sendAnswer = s.sendAnswer.withPower c b := by
      unfold State.sendAnswer
      rw [hn]
      unfold State.withPower
      cases s.link.outstanding with
      | nil => rfl
      | cons r rs => cases hr : r.answer <;> simp only [hr] <;> rfl
    rw [ha]
    unfold State.withPower
    cases s.frame.sendList <;> rfl

/-! ### The update -/

/-- The state on which an update's stage decision is taken: the notices of the input and the die level raised, the
charge controller settled, the readings taken. -/
def State.updateTold (s : State) (r : Readings) (present : Bool) : State :=
  State.withPower ((s.raiseIf (present != s.budget.inputPresent) (.input present r.vin)).raiseIf
      (decide ((s.charge.settle r).die ≠ s.charge.die)) (.thermal (s.charge.settle r).die r.tdie))
    (s.charge.settle r) { s.budget with readings := r, inputPresent := present }

/-- The budget of an update before the setpoint moves, given what the input, the gauge and the stage entered make. -/
def Budget.updated (b : Budget) (r : Readings) (present : Bool) (run : Nat) (setpoint : Int) (charge : Nat)
    (estimated : Bool) : Budget :=
  { b with
    readings := r, updates := b.updates + 1, passDue := later b.passDue passUs, inputPresent := present
    presenceRun := run, setpoint := setpoint, charge := charge, estimated := estimated, estimateDue := false }

/-- The charge of an update before a stage is entered (R152, R153). -/
def Budget.gauged (b : Budget) (r : Readings) : Nat :=
  if b.estimateDue = true then b.estimate r.vbat
  else min ((b.charge : Int) + r.ibat).toNat (b.cfg.capacity.toNat * 360000)

/-- With the input gone the stage decision ends in IDLE. -/
theorem State.decideStage_absent {s : State} (h : s.budget.inputPresent = false) :
    s.decideStage.charge.stage = .idle := by
  unfold State.decideStage
  rw [h]
  split <;> rename_i hi
  · exact hi
  · exact congrArg (fun u : State => u.charge.stage) (State.enterStage_eq _ .idle 0 none)

/-- The monitor update in one piece. -/
theorem State.monitorUpdate_eq (s : State) (conv : Conversions) : ∃ present run sp q e,
    (s.budget.inputPresent = true → (present = true ↔ s.budget.cfg.absentMv ≤ (readingsOf conv).vin)) ∧
    (s.budget.inputPresent = false →
      (present = true ↔ s.budget.cfg.presentMv ≤ (readingsOf conv).vin ∧ 2 ≤ s.budget.presenceRun)) ∧
    let d := (s.updateTold (readingsOf conv) present).decideStage
    (sp = s.budget.setpoint ∨ sp = 0 ∧ d.charge.stage.isRest = true) ∧
    (d.charge.stage = .full → s.charge.stage ≠ .full → q = s.budget.cfg.capacity.toNat * 360000 ∧ e = false) ∧
    (d.charge.stage ≠ .full ∨ s.charge.stage = .full →
      q = s.budget.gauged (readingsOf conv) ∧ e = s.budget.estimated) ∧
    d.charge.zone = (s.charge.settle (readingsOf conv)).zone ∧ d.charge.die = (s.charge.settle (readingsOf conv)).die ∧
    d.charge.profile = s.charge.profile ∧
    s.monitorUpdate conv = (d.withPower { d.charge with ceiling := d.charge.stageCeiling }
      (Budget.moveSetpoint (s.budget.updated (readingsOf conv) present run sp q e) d.charge.profile
        d.charge.stageCeiling).decideGrant).lowTest := by
  obtain ⟨present, run, hb, hp, ha⟩ := (s.budget.takeReadings (readingsOf conv)).settleInput_eq (readingsOf conv).vin
  have hg := Budget.gaugeUpdate_eq
    { s.budget.takeReadings (readingsOf conv) with inputPresent := present, presenceRun := run }
  let u := s.updateTold (readingsOf conv) present
  let b2 := s.budget.updated (readingsOf conv) present run s.budget.setpoint (s.budget.gauged (readingsOf conv))
    s.budget.estimated
  have hd : u.DecidesAlike b2 u.decideStage (u.withPower u.charge b2).decideStage := u.decideStage_alike b2
  have hm : s.monitorUpdate conv = State.lowTest { (u.withPower u.charge b2).decideStage.updateCeiling with
      budget := ((u.withPower u.charge b2).decideStage.budget.moveSetpoint
        (u.withPower u.charge b2).decideStage.charge.profile
        (u.withPower u.charge b2).decideStage.charge.stageCeiling).decideGrant } := by
    have h1 : State.inputUpdate { s with budget := s.budget.takeReadings (readingsOf conv) } =
        { s.raiseIf (present != s.budget.inputPresent) (.input present (readingsOf conv).vin) with
          budget := { s.budget.takeReadings (readingsOf conv) with inputPresent := present, presenceRun := run } } := by
      show State.raiseIf
        { s with budget := (s.budget.takeReadings (readingsOf conv)).settleInput (readingsOf conv).vin }
        (decide (((s.budget.takeReadings (readingsOf conv)).settleInput (readingsOf conv).vin).inputPresent ≠
          s.budget.inputPresent))
        (.input ((s.budget.takeReadings (readingsOf conv)).settleInput (readingsOf conv).vin).inputPresent
          (readingsOf conv).vin) = _
      have hne : decide (present ≠ s.budget.inputPresent) = (present != s.budget.inputPresent) := by
        cases present <;> cases s.budget.inputPresent <;> rfl
      rw [hb, hne]
      cases present != s.budget.inputPresent <;> rfl
    unfold State.monitorUpdate
    rw [h1]
    dsimp only
    rw [hg]
    have h2 : State.chargeUpdate { s.raiseIf (present != s.budget.inputPresent) (.input present (readingsOf conv).vin)
        with budget := b2 } = (u.withPower u.charge b2).decideStage.updateCeiling := by
      unfold State.chargeUpdate
      refine congrArg (fun v : State => v.decideStage.updateCeiling) ?_
      show _ = u.withPower (s.charge.settle (readingsOf conv)) b2
      unfold u State.updateTold
      rw [← State.raiseIf_withPower, ← State.raiseIf_withPower]
      cases present != s.budget.inputPresent <;> rfl
    exact congrArg (fun v : State => State.lowTest { v with
      budget := (v.budget.moveSetpoint v.charge.profile v.charge.ceiling).decideGrant }) h2
  obtain ⟨halike, hbudget, hzone, hdie, hprofile⟩ := hd
  generalize hD' : (u.withPower u.charge b2).decideStage = D' at *
  obtain ⟨sp, q, e, hb', hsp, hfull, hrest⟩ : ∃ sp q e,
      D'.budget = s.budget.updated (readingsOf conv) present run sp q e ∧
      (sp = s.budget.setpoint ∨ sp = 0 ∧ u.decideStage.charge.stage.isRest = true) ∧
      (u.decideStage.charge.stage = .full → s.charge.stage ≠ .full →
        q = s.budget.cfg.capacity.toNat * 360000 ∧ e = false) ∧
      (u.decideStage.charge.stage ≠ .full ∨ s.charge.stage = .full →
        q = s.budget.gauged (readingsOf conv) ∧ e = s.budget.estimated) := by
    rcases hbudget with ⟨h1, h2⟩ | ⟨h1, h2⟩
    · exact ⟨_, _, _, h1, .inl rfl, fun h3 h4 => absurd (h2.symm.trans h3) h4, fun _ => ⟨rfl, rfl⟩⟩
    · rw [Budget.onEnter_eq] at h1
      refine ⟨_, _, _, h1, ?_, fun h3 _ => ⟨if_pos h3, if_pos h3⟩, fun h3 => ?_⟩
      · cases u.decideStage.charge.stage <;> simp [Stage.isRest, b2, Budget.updated]
      · have h4 : u.decideStage.charge.stage ≠ .full := fun h => h3.elim (· h) (h2 h)
        exact ⟨if_neg h4, if_neg h4⟩
  refine ⟨present, run, sp, q, e, hp, ha, hsp, hfull, hrest, hzone, hdie, hprofile, ?_⟩
  rw [hm, halike, ← hb']
  rfl

end Sys2Proof.Machine
end


section
/-! SUPPORT. The settlement of MONITOR_UPDATE. -/
namespace Sys2Proof.Machine

theorem ClipState.isOpen_iff (c : ClipState) : c.isOpen = true ↔ c ≠ .idle := by cases c <;> simp [ClipState.isOpen]

/-- The low-power test's warning, in the conditions' own words. -/
theorem State.lowWarned_iff (s : State) : s.lowWarned = true ↔ s.budget.inputPresent = false ∧
    (s.budget.charge ≤ s.budget.cfg.closeReserve.toNat * 360000 ∨ s.budget.readings.vbat ≤ s.budget.cfg.cutoff) ∧
    4 ≤ s.budget.lowRun ∧ if s.clip.state = .idle then s.budget.lowState = false else s.budget.ordered = false := by
  unfold State.lowWarned
  rw [Bool.and_eq_true, Bool.and_eq_true, decide_eq_true_eq, Budget.lowCondition_iff]
  by_cases h : s.clip.state = .idle
  · rw [if_pos h, h]
    simp [ClipState.isOpen, and_assoc]
  · rw [if_neg h, if_pos ((ClipState.isOpen_iff _).mpr h)]
    simp [and_assoc]

/-- The cause of a warning, in the conditions' own words. -/
theorem Budget.lowCause_eq (b : Budget) : b.lowCause =
    if b.charge ≤ b.cfg.closeReserve.toNat * 360000 ∧ b.readings.vbat ≤ b.cfg.cutoff then .both
    else if b.charge ≤ b.cfg.closeReserve.toNat * 360000 then .charge else .voltage := by
  unfold Budget.lowCause Budget.chargeLow Budget.voltageLow
  simp only [Bool.and_eq_true, decide_eq_true_eq]

/-- The estimate of a voltage in a rising OCV table, segment by segment (R153). -/
theorem Budget.estimate_eq {b : Budget} {v : Int} (hl : b.ocv.length = 11) (ho : b.ocv.Pairwise (· < ·)) :
    (v ≤ b.ocv.getD 0 0 → b.estimate v = 0) ∧
    (b.ocv.getD 10 0 ≤ v → b.estimate v = b.cfg.capacity.toNat * 360000) ∧
    (∀ i : Nat, i < 10 → b.ocv.getD 0 0 < v → b.ocv.getD i 0 ≤ v → v < b.ocv.getD (i + 1) 0 →
      b.estimate v = (roundHalfAway (b.cfg.capacity * 36000 *
        ((i : Int) * (b.ocv.getD (i + 1) 0 - b.ocv.getD i 0) + v - b.ocv.getD i 0))
        (b.ocv.getD (i + 1) 0 - b.ocv.getD i 0).toNat).toNat) := by
  have rises {i j : Nat} (hij : i < j) (hj : j < 11) : b.ocv.getD i 0 < b.ocv.getD j 0 := by
    rw [List.getD_eq_getElem _ _ (by omega), List.getD_eq_getElem _ _ (by omega)]
    exact List.pairwise_iff_getElem.mp ho i j (by omega) (by omega) hij
  refine ⟨fun h => if_pos h, fun h => ?_, fun i hi h0 h1 h2 => ?_⟩
  · have := rises (i := 0) (j := 10) (by omega) (by omega)
    exact (if_neg (by omega)).trans (if_pos h)
  · have h3 : ¬b.ocv.getD 10 0 ≤ v := by
      rcases Nat.lt_or_ge (i + 1) 10 with h | h
      · have := rises h (by omega)
        omega
      · rw [show i + 1 = 10 by omega] at h2
        omega
    refine (if_neg (by omega)).trans ((if_neg h3).trans ?_)
    rw [ocvSegment_eq (k := 0) ho (by omega) h1 h2, Nat.zero_add]

/-- The setpoint of an update in a stage kept, by what IIN and the waiting time allow (R148). -/
theorem waitedEnough_iff (o : Option Nat) (u : Nat) : waitedEnough (o.map fun n => min (n + 1) 100) u = true ↔
    ∀ n, o = some n → u ≤ min (n + 1) 100 := by
  cases o <;> simp [waitedEnough]

/-- The low-power test and the arbiter after it, over a charge controller and a budget put in place. -/
theorem State.lowTest_arbitrate (d : State) (c : ChargeController) (b : Budget) : (d.withPower c b).lowTest.arbitrate =
    (d.raiseIf (d.withPower c b).lowWarned (b.powerLow d.clip.state.isOpen)).arbitrate.withPower c { b with
      lowRun := if b.lowCondition = true then min (b.lowRun + 1) 5 else 0
      lowState := b.lowCondition && (b.lowState || (d.withPower c b).lowWarned)
      ordered := b.ordered || (d.withPower c b).lowWarned && d.clip.state.isOpen
      orderPending := b.orderPending || (d.withPower c b).lowWarned && d.clip.state.isOpen } := by
  rw [State.lowTest_eq]
  exact (congrArg State.arbitrate (d.raiseIf_withPower c _ _ _)).trans (State.arbitrate_withPower _ _ _)

/-- Settles O53: the update in one piece, and each field of its result. -/
theorem monitorUpdate : Obligations.MonitorUpdate := by
  intro s conv
  refine ⟨fun h => congrArg Host.Outcome.next (if_neg (by simp [State.passEnded, h])),
    fun h hb => ⟨_, congrArg Host.Outcome.next (if_pos h), ?_⟩⟩
  have honly := s.monitorUpdate_only conv
  obtain ⟨present, run, sp, q, e, hp, ha, hsp, hfull, hrest, hzone, hdie, hprofile, hm⟩ := s.monitorUpdate_eq conv
  generalize hr : readingsOf conv = r at *
  generalize hd : (s.updateTold r present).decideStage = d at *
  have hclip : d.clip = s.clip := by
    obtain ⟨ns, h⟩ := (State.charges_decideStage (s.updateTold r present)).only
    rw [← hd, h]
    obtain ⟨ns', h'⟩ := (State.charges_raiseIf s _ _).only.trans (State.charges_raiseIf _ _ _).only
    show ((s.raiseIf _ _).raiseIf _ _).clip = _
    rw [h']
  obtain ⟨v, since, hmv, hback, hmove⟩ := Budget.moveSetpoint_eq (s.budget.updated r present run sp q e)
    d.charge.profile d.charge.stageCeiling
  have hnn : d.charge.profile.NonNegative := by rw [hprofile]; exact hb.1
  have hsp0 : 0 ≤ sp := by rcases hsp with h | ⟨h, -⟩ <;> rw [h]; exact hb.2.2.1
  obtain ⟨hv0, hvc⟩ := Budget.moveSetpoint_bounded (b := s.budget.updated r present run sp q e) hnn hsp0
    (ChargeController.stageCeiling_nonneg hnn)
  rw [hmv] at hm hv0 hvc
  obtain ⟨g, hg, hpend, hother⟩ := Budget.decideGrant_eq { s.budget.updated r present run sp q e with
    limitEff := (s.budget.updated r present run sp q e).effectiveLimit, sinceRise := since, setpoint := v, inForce := v }
  rw [hg] at hm
  have hd0 : present = false → d.charge.stage = .idle := fun h => by
    rw [← hd]; exact State.decideStage_absent h
  have hopen : s.clip.state.isOpen = decide (s.clip.state ≠ .idle) := by
    rw [Bool.eq_iff_iff, ClipState.isOpen_iff, decide_eq_true_eq]
  have hkept : (s.monitorUpdate conv).arbitrate.capture = s.capture ∧ (s.monitorUpdate conv).arbitrate.imu = s.imu ∧
      (s.monitorUpdate conv).arbitrate.motion = s.motion ∧ (s.monitorUpdate conv).arbitrate.buffer = s.buffer ∧
      (s.monitorUpdate conv).arbitrate.clip = s.clip ∧ (s.monitorUpdate conv).arbitrate.card = s.card ∧
      (s.monitorUpdate conv).arbitrate.pins = s.pins ∧ (s.monitorUpdate conv).arbitrate.freeCount = s.freeCount ∧
      (s.monitorUpdate conv).arbitrate.pending = s.pending := by
    obtain ⟨ns, honly⟩ := honly
    simp only [arbitrate_capture, arbitrate_imu, arbitrate_motion, arbitrate_buffer, arbitrate_clip, arbitrate_card,
      arbitrate_pins, arbitrate_freeCount, arbitrate_pending]
    rw [honly]
    exact ⟨rfl, rfl, rfl, rfl, rfl, rfl, rfl, rfl, rfl⟩
  obtain ⟨kcapture, kimu, kmotion, kbuffer, kclip, kcard, kpins, kfree, kpending⟩ := hkept
  have ht := (congrArg State.arbitrate hm).trans (State.lowTest_arbitrate _ _ _)
  generalize (s.monitorUpdate conv).arbitrate = t at *
  generalize hw : State.lowWarned _ = w at ht
  generalize hL : Budget.lowCondition _ = L at ht
  have hlow : L = true ↔ present = false ∧ (q ≤ s.budget.cfg.closeReserve.toNat * 360000 ∨
      r.vbat ≤ s.budget.cfg.cutoff) := by rw [← hL]; exact Budget.lowCondition_iff _
  have hwarn : w = true ↔ present = false ∧ (q ≤ s.budget.cfg.closeReserve.toNat * 360000 ∨
      r.vbat ≤ s.budget.cfg.cutoff) ∧ 4 ≤ s.budget.lowRun ∧
      if s.clip.state = .idle then s.budget.lowState = false else s.budget.ordered = false := by
    rw [← hw, ← hclip]; exact State.lowWarned_iff _
  rw [hclip, hopen] at ht
  subst ht
  refine ⟨hr.symm, rfl, rfl, ⟨hp, ha, ?absent, hfull, ?gauge, rfl, hzone, hdie, rfl, ?told, rfl, rfl, hv0, hvc, ?set, hpend,
    hother, ?low⟩, kcapture, kimu, kmotion, kbuffer, kclip, kcard, kpins, rfl, rfl, hprofile⟩
  case absent =>
    intro h
    refine ⟨hd0 h, le_antisymm (hvc.trans (le_of_eq ?_)) hv0⟩
    exact ChargeController.stageCeiling_rest (by rw [hd0 h]; rfl)
  case gauge =>
    intro h
    obtain ⟨rfl, he⟩ := hrest h
    refine ⟨he, fun hn => ?_, fun hn h11 hrise => ?_⟩
    · show (s.budget.gauged r : Int) = _
      unfold Budget.gauged
      rw [if_neg (by rw [hn]; decide)]
      show ((min ((s.budget.charge : Int) + r.ibat).toNat (s.budget.cfg.capacity.toNat * 360000) : Nat) : Int) =
        max 0 (min ((s.budget.charge : Int) + r.ibat) ((s.budget.cfg.capacity.toNat : Int) * 360000))
      omega
    · have hq : s.budget.gauged r = s.budget.estimate r.vbat := if_pos hn
      obtain ⟨h1, h2, h3⟩ := Budget.estimate_eq (v := r.vbat) h11 hrise
      exact ⟨fun k => hq.trans (h1 k), fun k => hq.trans (h2 k), fun i k1 k2 k3 k4 => hq.trans (h3 i k1 k2 k3 k4)⟩
  case told =>
    intro input told decided chargeLow voltageLow warned last
    have hdecided : decided = d := by
      rw [← hd]
      unfold decided told input State.updateTold
      rw [← hdie]
      rfl
    have hlast : last = (d.raiseIf w (Budget.powerLow (Budget.updated s.budget r present run sp q e)
        (decide (s.clip.state ≠ .idle)))).arbitrate := by
      have hwarned : decide warned = w := by
        rw [Bool.eq_iff_iff, decide_eq_true_eq]
        exact hwarn.symm
      unfold last
      rw [hdecided, hwarned]
      refine congrArg (fun n => (d.raiseIf w n).arbitrate) ?_
      exact (congrArg (fun c => Notice.powerLow c (q * 100 / (s.budget.cfg.capacity.toNat * 360000)) r.vbat
        (decide (s.clip.state ≠ .idle)))
        (Budget.lowCause_eq (Budget.updated s.budget r present run sp q e))).symm
    rw [hlast, hdecided]
    exact ⟨rfl, rfl, rfl, kfree, kpending⟩
  case set =>
    intro hsame hrest low
    have hsp' : sp = s.budget.setpoint := hsp.resolve_right fun k => by
      have hk : d.charge.stage.isRest = false := hrest
      rw [k.2] at hk
      exact absurd hk (by decide)
    subst hsp'
    rw [hprofile] at hback hmove
    refine ⟨hback, fun h1 h2 => ?_⟩
    obtain ⟨hup, hstay⟩ := hmove h1 h2
    refine ⟨fun k1 k2 k3 => ?_, fun n k1 k2 => hstay fun ⟨_, j, _⟩ => ?_, fun k => hstay fun ⟨j1, _, j2, _⟩ => ?_⟩
    · by_cases hc : low < d.charge.stageCeiling
      · exact hup ⟨k1, (waitedEnough_iff _ _).mpr k3, k2, hc⟩
      · have hv := hstay fun ⟨_, _, _, j⟩ => hc j
        have hstep : 0 ≤ s.charge.profile.rampStep := hb.1.2.2.2.2.1
        have hle : low ≤ d.charge.stageCeiling := min_le_right _ _
        exact hv.trans (show low = min (low + s.charge.profile.rampStep) d.charge.stageCeiling by omega)
    · exact absurd ((waitedEnough_iff _ _).mp j n k1) (not_le.mpr k2)
    · exact k.elim (· j2) fun k => absurd j1 (not_lt.mpr k)
  case low =>
    intro low
    have hlow : L = true ↔ low := hlow
    have ho : s.clip.state ≠ .idle → decide (s.clip.state ≠ .idle) = true := decide_eq_true
    refine ⟨fun h => ?_, fun h => if_pos (hlow.mpr h), fun h h4 => ?_, fun h h4 h5 h6 => ?_, fun h => ?_⟩
    · have hL' : L = false := Bool.eq_false_iff.mpr fun k => h (hlow.mp k)
      have hw' : w = false := Bool.eq_false_iff.mpr fun k => h ⟨(hwarn.mp k).1, (hwarn.mp k).2.1⟩
      simp [State.withPower, hL', hw', Budget.updated]
    · by_cases hi : s.clip.state = .idle
      · refine .inl ?_
        show (L && (s.budget.lowState || w)) = true
        rw [hlow.mpr h]
        cases hs : s.budget.lowState
        · exact hwarn.mpr ⟨h.1, h.2, h4, by rw [if_pos hi]; exact hs⟩
        · rfl
      · cases hs : s.budget.ordered
        · refine .inl ?_
          show (L && (s.budget.lowState || w)) = true
          rw [hlow.mpr h, hwarn.mpr ⟨h.1, h.2, h4, by rw [if_neg hi]; exact hs⟩, Bool.or_true]
          rfl
        · exact .inr ⟨hi, rfl⟩
    · have hw' : w = true := hwarn.mpr ⟨h.1, h.2, h4, by rw [if_neg h5]; exact h6⟩
      constructor
      · show (s.budget.ordered || w && decide (s.clip.state ≠ .idle)) = true
        rw [hw', ho h5, Bool.and_self, Bool.or_true]
      · show (s.budget.orderPending || w && decide (s.clip.state ≠ .idle)) = true
        rw [hw', ho h5, Bool.and_self, Bool.or_true]
    · have hw' : (w && decide (s.clip.state ≠ .idle)) = false := by
        rw [Bool.and_eq_false_iff, decide_eq_false_iff_not, not_not, or_iff_not_imp_right, ← Bool.not_eq_true]
        rintro hi k
        obtain ⟨-, -, k4, k5⟩ := hwarn.mp k
        rw [if_neg hi] at k5
        rcases h with h | h | h
        · exact hi h
        · exact absurd (h.symm.trans k5) (by decide)
        · omega
      constructor
      · show (s.budget.ordered || w && decide (s.clip.state ≠ .idle)) = s.budget.ordered
        rw [hw', Bool.or_false]
      · show (s.budget.orderPending || w && decide (s.clip.state ≠ .idle)) = s.budget.orderPending
        rw [hw', Bool.or_false]

end Sys2Proof.Machine
end


section
/-! SUPPORT. The emergency close (R100): the clip recorder in EMERGENCY, what the order bounds and discards. -/
namespace Sys2Proof.Machine

/-! ### The clip recorder in EMERGENCY -/

/-- EMERGENCY with the accumulator closed: the segment FILLING, if there is one, keeps its slot `k` and its limit. -/
structure State.Emergency (u : State) (k limit : Nat) : Prop where
  state : u.clip.state = .emergency
  accOpen : u.frame.accOpen = false
  acc : u.frame.acc = []
  filling : ∀ f, u.clip.filling = some f → f.slot = k ∧ f.limit = limit

namespace State.Emergency
variable {u : State} {k limit : Nat}

theorem setFilling (h : u.Emergency k limit) {f : Filling} (hs : f.slot = k) (hl : f.limit = limit) :
    (u.setFilling f).Emergency k limit :=
  ⟨h.state, h.accOpen, h.acc, fun _ e => by cases e; exact ⟨hs, hl⟩⟩

theorem setSlot (h : u.Emergency k limit) (i : Nat) (x : Slot) : (u.setSlot i x).Emergency k limit :=
  ⟨h.state, h.accOpen, h.acc, h.filling⟩

theorem buffer (h : u.Emergency k limit) (b : ChunkBuffer) : State.Emergency { u with buffer := b } k limit :=
  ⟨h.state, h.accOpen, h.acc, h.filling⟩

theorem requestFlush (h : u.Emergency k limit) (m : Option Word32) : (u.requestFlush m).Emergency k limit := by
  cases m with
  | none => exact h
  | some m =>
    have h' : ((u.markFlush (some m))).Emergency k limit := h.buffer _
    show ((u.markFlush (some m)).padMark).Emergency k limit
    unfold State.padMark
    split
    · rename_i f _ hf _
      split
      · rw [Filling.endStream_eq]
        exact h'.setFilling (h'.filling f hf).1 (h'.filling f hf).2
      · exact h'
    · exact h'

theorem endStreamAt (h : u.Emergency k limit) {f : Filling} (hs : f.slot = k) (hl : f.limit = limit) (pos : Nat) :
    (u.endStreamAt f pos).Emergency k limit := by
  rw [State.endStreamAt_eq]
  exact ⟨h.state, h.accOpen, h.acc, fun _ e => by cases e; exact ⟨hs, hl⟩⟩

theorem emergencyDiscard (h : u.Emergency k limit) {f : Filling} (hs : f.slot = k) (hl : f.limit = limit)
    (seq : Word32) : (u.emergencyDiscard f seq).Emergency k limit :=
  (h.buffer _).endStreamAt hs hl _

theorem placeChunk (h : u.Emergency k limit) {f : Filling} (hs : f.slot = k) (hl : f.limit = limit) (c : Chunk) :
    (u.placeChunk f c).Emergency k limit := by
  have h1 : (if f.anyPlaced then u else u.setSlot f.slot { u.clip.slot f.slot with firstSeq := some c.seq }).Emergency
      k limit := by
    split
    · exact h
    · exact h.setSlot _ _
  unfold State.placeChunk
  refine (h1.buffer _).setFilling ?_ ?_
  all_goals split
  · rw [Filling.endStream_eq]; exact hs
  · exact hs
  · rw [Filling.endStream_eq]; exact hl
  · exact hl

/-- In EMERGENCY a chunk judged is placed, or discarded with all after it (R100). -/
theorem judgePlacement (h : u.Emergency k limit) {f : Filling} (hf : u.clip.filling = some f) (c : Chunk) :
    (u.judgePlacement f c).Emergency k limit := by
  obtain ⟨hs, hl⟩ := h.filling f hf
  have hw : u.awaitKeyframe f = u := if_neg (by simp [h.state])
  unfold State.judgePlacement
  simp only [hw, h.state, if_true]
  split
  · exact h.placeChunk hs hl c
  · exact h.emergencyDiscard hs hl _

theorem advanceClip (n : Nat) : ∀ {u : State}, u.Emergency k limit → (u.advanceClip n).Emergency k limit := by
  induction n with
  | zero => exact id
  | succ n ih =>
    intro u h
    have hd : u.drained = none := by
      unfold State.drained
      split
      · rfl
      · split
        · rfl
        · simp [h.state]
    unfold State.advanceClip
    simp only [hd]
    split
    · rename_i f c hn
      exact ih (h.judgePlacement (State.nextPlacement_spec hn).1 c)
    · exact h

/-- What the end of the event leaves of an emergency close (R100). -/
theorem settleClip (h : u.Emergency k limit) : u.settleClip.frame.accOpen = false ∧ u.settleClip.frame.acc = [] ∧
    (u.settleClip.clip.state = .emergency ∨ u.settleClip.clip.state = .idle) ∧
    (u.settleClip.clip.state = .idle → u.settleClip.buffer.queue = []) ∧
    ∀ f, u.settleClip.clip.filling = some f → f.slot = k ∧ f.limit = limit := by
  have h' := h.advanceClip u.clipFuel
  unfold State.settleClip
  generalize u.advanceClip u.clipFuel = w at *
  unfold State.finishClose
  rw [h'.state]
  split <;> rename_i hq
  · have hc (r : EndReason) : (w.closeSegment r).frame = w.frame ∧ (w.closeSegment r).buffer = w.buffer := by
      unfold State.closeSegment
      split <;> exact ⟨rfl, rfl⟩
    simp only
    refine ⟨(congrArg FrameBuilder.accOpen (hc _).1).trans h'.accOpen, (congrArg FrameBuilder.acc (hc _).1).trans h'.acc,
      .inr rfl, fun _ => ?_, nofun⟩
    exact (congrArg ChunkBuffer.queue (hc _).2).trans (List.isEmpty_iff.mp hq)
  · exact ⟨h'.accOpen, h'.acc, .inl h'.state, (fun hi => nomatch h'.state.symm.trans hi), h'.filling⟩

end State.Emergency

/-! ### The motion chunk handed over -/

/-- A hand-over adds READY chunks with no placement at the tail of the queue, or none, and leaves the clip record. -/
theorem State.enqueueMotion_appends (s : State) (recs : List FrameRecord) : ∃ l,
    (s.enqueueMotion recs).buffer.queue = s.buffer.queue ++ l ∧ (∀ c ∈ l, c.place = none ∧ c.state = .ready) ∧
    (s.enqueueMotion recs).buffer.discarded = s.buffer.discarded ∧ (s.enqueueMotion recs).clip = s.clip ∧
    (s.enqueueMotion recs).budget = s.budget := by
  unfold State.enqueueMotion
  split
  · refine ⟨_, rfl, ?_, rfl, rfl, rfl⟩
    simp
  · exact ⟨[], (List.append_nil _).symm, nofun, rfl, rfl, rfl⟩
  · exact ⟨[], (List.append_nil _).symm, nofun, rfl, rfl, rfl⟩
  · refine ⟨[], ?_, nofun, ?_⟩ <;> unfold State.chooseFree <;> split
    · exact (List.append_nil _).symm
    · exact (List.append_nil _).symm
    · exact ⟨rfl, rfl, rfl⟩
    · exact ⟨rfl, rfl, rfl⟩

/-! ### What the order bounds and discards (R100, steps 2 to 4) -/

/-- Nothing that a DAMAGED close withdrew stands in the queue. -/
theorem ChunkBuffer.discardWithdrawn_self {b : ChunkBuffer} {pending : Option CloseCause}
    (h : pending = some .damaged → ∀ c ∈ b.queue, c.state = .placed → c.place ≠ none) :
    b.discardWithdrawn pending = b := by
  unfold ChunkBuffer.discardWithdrawn
  split
  · rename_i c hc
    have hp := List.find?_some (p := fun c : Chunk => decide (c.state = .placed) && c.place.isNone) hc
    obtain ⟨h1, h2⟩ := Bool.and_eq_true_iff.mp hp
    exact absurd (Option.isNone_iff_eq_none.mp h2) (h rfl c (List.mem_of_find?_eq_some hc) (of_decide_eq_true h1))
  · rfl

/-- The first chunk that a DAMAGED close withdrew is discarded with all after it. -/
theorem ChunkBuffer.discardWithdrawn_from {b : ChunkBuffer} {q rest : List Chunk} {w : Chunk}
    (hq : b.queue = q ++ w :: rest) (h1 : w.state = .placed) (h2 : w.place = none)
    (h : ∀ c ∈ q, c.state = .placed → c.place ≠ none) :
    b.discardWithdrawn (some .damaged) = b.discardFrom w.seq := by
  have hw : b.firstWithdrawn = some w := by
    unfold ChunkBuffer.firstWithdrawn
    rw [hq, List.find?_append, List.find?_eq_none.mpr fun c hc => by simpa using h c hc, Option.none_or,
      List.find?_cons_of_pos (by simp [h1, h2])]
  unfold ChunkBuffer.discardWithdrawn
  rw [hw]

section
variable {s : State} {f : Filling} (hf : s.clip.filling = some f)
include hf

/-- No chunk ends past the limit: only the segment's limit and its close change, and what was withdrawn goes. -/
theorem State.boundEmergency_within
    (h : (s.buffer.discardWithdrawn f.pending).firstPast (f.enterEmergency s.clip.cfg.emergencyBudget).limit = none) :
    s.boundEmergency = State.setFilling { s with buffer := s.buffer.discardWithdrawn f.pending }
      (f.enterEmergency s.clip.cfg.emergencyBudget) := by
  unfold State.boundEmergency
  rw [hf]
  simp only
  rw [show (State.setFilling { s with buffer := s.buffer.discardWithdrawn f.pending }
    (f.enterEmergency s.clip.cfg.emergencyBudget)).buffer.firstPast
      (f.enterEmergency s.clip.cfg.emergencyBudget).limit = none from h]

/-- A chunk that ends past the limit is discarded with all after it. -/
theorem State.boundEmergency_past {c : Chunk}
    (h : (s.buffer.discardWithdrawn f.pending).firstPast (f.enterEmergency s.clip.cfg.emergencyBudget).limit = some c) :
    s.boundEmergency = State.emergencyDiscard (State.setFilling { s with
        buffer := s.buffer.discardWithdrawn f.pending } (f.enterEmergency s.clip.cfg.emergencyBudget))
      (f.enterEmergency s.clip.cfg.emergencyBudget) c.seq := by
  unfold State.boundEmergency
  rw [hf]
  simp only
  rw [show (State.setFilling { s with buffer := s.buffer.discardWithdrawn f.pending }
    (f.enterEmergency s.clip.cfg.emergencyBudget)).buffer.firstPast
      (f.enterEmergency s.clip.cfg.emergencyBudget).limit = some c from h]

end

/-- The stream ends where the last placed chunk of the queue does. -/
theorem State.standingEnd_eq {u : State} {f : Filling} {e : Chunk} {o : Nat}
    (hlast : (u.buffer.queue.filter (fun c => c.place.isSome)).getLast? = some e) (ho : e.place = some o) :
    u.standingEnd f = o + (16 + e.length) := by
  unfold State.standingEnd
  rw [hlast]
  show e.place.getD 0 + (16 + e.length) = _
  rw [ho]
  rfl

/-- What the order makes of the segment, and of a clip with none. -/
theorem State.boundEmergency_emergency {u : State} {k limit : Nat} (hs : u.clip.state = .emergency)
    (ho : u.frame.accOpen = false) (ha : u.frame.acc = [])
    (hk : ∀ f, u.clip.filling = some f → f.slot = k ∧ (f.enterEmergency u.clip.cfg.emergencyBudget).limit = limit) :
    u.boundEmergency.Emergency k limit := by
  cases hf : u.clip.filling with
  | none =>
    unfold State.boundEmergency
    rw [hf]
    exact ⟨hs, ho, ha, fun f h => absurd (hf.symm.trans h) nofun⟩
  | some f =>
    obtain ⟨h1, h2⟩ := hk f hf
    have h : (State.setFilling { u with buffer := u.buffer.discardWithdrawn f.pending }
        (f.enterEmergency u.clip.cfg.emergencyBudget)).Emergency k limit :=
      ⟨hs, ho, ha, fun _ e => by cases e; exact ⟨h1, h2⟩⟩
    cases hp : (u.buffer.discardWithdrawn f.pending).firstPast (f.enterEmergency u.clip.cfg.emergencyBudget).limit with
    | none => rw [State.boundEmergency_within hf hp]; exact h
    | some c => rw [State.boundEmergency_past hf hp]; exact h.emergencyDiscard (f := f.enterEmergency u.clip.cfg.emergencyBudget) h1 h2 _

theorem State.boundEmergency_budget (u : State) : u.boundEmergency.budget = u.budget := by
  cases hf : u.clip.filling with
  | none =>
    unfold State.boundEmergency
    rw [hf]
  | some f =>
    cases hp : (u.buffer.discardWithdrawn f.pending).firstPast (f.enterEmergency u.clip.cfg.emergencyBudget).limit with
    | none => rw [State.boundEmergency_within hf hp]; rfl
    | some c =>
      rw [State.boundEmergency_past hf hp]
      unfold State.emergencyDiscard
      dsimp only
      rw [State.endStreamAt_eq]
      rfl

/-- With every descriptor placed, those that stay end within the limit and are placed still. -/
theorem State.boundEmergency_queue {u : State} {f : Filling} (hf : u.clip.filling = some f)
    (hq : ∀ c ∈ u.buffer.queue, c.place ≠ none) : ∀ c ∈ u.boundEmergency.buffer.queue, c.place ≠ none ∧
    ∀ o, c.place = some o → o + (16 + c.length) ≤ (f.enterEmergency u.clip.cfg.emergencyBudget).limit := by
  have hd : u.buffer.discardWithdrawn f.pending = u.buffer :=
    ChunkBuffer.discardWithdrawn_self fun _ c hc _ => hq c hc
  have within {q : List Chunk} {n : Nat}
      (h : ∀ c ∈ q, ¬(c.place.isSome && decide (n < c.streamEnd)) = true) :
      ∀ c ∈ q, ∀ o, c.place = some o → o + (16 + c.length) ≤ n := by
    intro c hc o ho
    have := h c hc
    simp only [ho, Chunk.streamEnd, Chunk.streamBytes, Option.isSome_some, Option.getD_some, Bool.true_and,
      decide_eq_true_eq] at this
    omega
  cases hp : u.buffer.firstPast (f.enterEmergency u.clip.cfg.emergencyBudget).limit with
  | none =>
    rw [State.boundEmergency_within hf (by rw [hd]; exact hp), hd]
    exact fun c hc => ⟨hq c hc, within (List.find?_eq_none.mp hp) c hc⟩
  | some c =>
    rw [State.boundEmergency_past hf (by rw [hd]; exact hp), hd]
    obtain ⟨-, before, after, heq, hbefore⟩ := List.find?_eq_some_iff_append.mp hp
    intro e he
    have hmem : e ∈ before := by
      unfold State.emergencyDiscard at he
      dsimp only at he
      rw [State.endStreamAt_eq] at he
      have he : e ∈ (u.buffer.discardFrom c.seq).queue := he
      unfold ChunkBuffer.discardFrom at he
      rw [ChunkBuffer.clearFlush_eq] at he
      have he : e ∈ u.buffer.queue.take (u.buffer.indexOf c.seq) := he
      have hix : u.buffer.indexOf c.seq ≤ before.length := by
        unfold ChunkBuffer.indexOf
        rw [heq, List.findIdx_append]
        split
        · omega
        · simp [List.findIdx_cons]
      rw [heq, List.take_append_of_le_length hix] at he
      exact List.mem_of_mem_take he
    exact ⟨hq e (heq ▸ List.mem_append_left _ hmem), within (fun d hd' k => by simpa [k] using hbefore d hd') e hmem⟩

/-- With every descriptor placed an emergency close judges none, and its end takes none from the queue. -/
theorem State.Emergency.settleClip_queue {u : State} {k limit : Nat} (h : u.Emergency k limit)
    (hq : ∀ c ∈ u.buffer.queue, c.place ≠ none) : u.settleClip = u.finishClose ∧
      u.settleClip.buffer.queue = u.buffer.queue := by
  have hd : u.drained = none := by
    unfold State.drained
    split
    · rfl
    · split
      · rfl
      · simp [h.state]
  have hn : u.nextPlacement = none := by
    unfold State.nextPlacement
    split
    · rename_i c _ hc
      have hp := List.find?_some (p := fun c : Chunk => c.place.isNone) hc
      exact absurd (Option.isNone_iff_eq_none.mp hp) (hq c (List.mem_of_find?_eq_some hc))
    · rfl
  have hs := State.settleClip_done hd hn
  refine ⟨hs, ?_⟩
  have hc (r : EndReason) : (u.closeSegment r).buffer = u.buffer := by
    unfold State.closeSegment
    split <;> rfl
  rw [hs]
  unfold State.finishClose
  rw [h.state]
  split
  · exact congrArg ChunkBuffer.queue (hc _)
  · rfl

/-- Settles O54: the order of the steps, the segment's bounds, and what is left at the end. -/
theorem emergencyClose : Obligations.EmergencyClose := by
  intro s
  refine ⟨fun h => congrArg Host.Outcome.next (if_neg (by simp [h])), fun h => ?_⟩
  have htake : exec .emergencyClose s = .next s.takeOrder := congrArg Host.Outcome.next (if_pos h)
  refine ⟨fun hc => htake.trans ?_, ?_⟩
  · unfold State.takeOrder
    rcases hc with hc | hc <;> rw [hc]
  intro h1 h2 begun handed bounded
  have hexec : exec .emergencyClose s = .next (State.conclude (bounded.requestFlush bounded.buffer.lastQueued)) := by
    refine htake.trans ?_
    have hb : handed = State.handOver (State.setClipState { s with budget := { s.budget with orderPending := false } }
        .emergency) :=
      (State.handOver_eq (State.setClipState { s with budget := { s.budget with orderPending := false } } .emergency)).symm
    unfold State.takeOrder bounded
    rw [hb]
    cases hs : s.clip.state
    · exact absurd hs h1
    · rfl
    · rfl
    · rfl
    · exact absurd hs h2
  obtain ⟨l, hlq, hl, hdisc, hclip, hbud⟩ : ∃ l, handed.buffer.queue = s.buffer.queue ++ l ∧
      (∀ c ∈ l, c.place = none ∧ c.state = .ready) ∧ handed.buffer.discarded = s.buffer.discarded ∧
      handed.clip = begun.clip ∧ handed.budget = begun.budget := by
    unfold handed
    split
    · exact begun.enqueueMotion_appends _
    · exact ⟨[], (List.append_nil _).symm, nofun, rfl, rfl, rfl⟩
  have hcfg : handed.clip.cfg = s.clip.cfg := by rw [hclip]
  have hfilling : handed.clip.filling = s.clip.filling := by rw [hclip]
  refine ⟨hexec, fun hf => ?_, ?_, ?_⟩
  · unfold bounded State.boundEmergency
    rw [hfilling, hf]
  · intro f hf limit cancelled
    have hfh := hfilling.trans hf
    have hce : f.enterEmergency handed.clip.cfg.emergencyBudget = cancelled := by rw [hcfg]; rfl
    -- the chunks handed over have no placement and were not withdrawn
    have hnone : ∀ {q : List Chunk}, (∀ c o, c ∈ q → c.place = some o → o + (16 + c.length) ≤ limit) →
        ∀ c o, c ∈ q ++ l → c.place = some o → o + (16 + c.length) ≤ limit := by
      intro q hq c o hc ho
      rcases List.mem_append.mp hc with hc | hc
      · exact hq c o hc ho
      · rw [(hl c hc).1] at ho; cases ho
    refine ⟨fun hw hp => ?_, fun q w rest hq hpend hw1 hw2 hbefore hp => ?_, fun q c rest o hq hpend ho hpast hseq hp => ?_⟩
    · have hd : handed.buffer.discardWithdrawn f.pending = handed.buffer := by
        refine ChunkBuffer.discardWithdrawn_self fun k c hc hs => ?_
        rw [hlq] at hc
        rcases List.mem_append.mp hc with hc | hc
        · exact hw k c hc hs
        · rw [(hl c hc).2] at hs; cases hs
      have hwithin := State.boundEmergency_within hfh (by
        rw [hd, hce]
        refine ChunkBuffer.firstPast_none fun c o hc => ?_
        rw [hlq] at hc
        exact hnone hp c o hc)
      rw [hd, hce] at hwithin
      exact hwithin
    · have hq' : handed.buffer.queue = q ++ w :: (rest ++ l) := by rw [hlq, hq, List.append_assoc, List.cons_append]
      have hd : handed.buffer.discardWithdrawn f.pending = handed.buffer.discardFrom w.seq := by
        rw [hpend]
        exact ChunkBuffer.discardWithdrawn_from hq' hw1 hw2 fun c hc => (hbefore c hc).2
      have hfrom := ChunkBuffer.discardFrom_eq _ hq' fun d hd => (hbefore d hd).1
      have hwithin := State.boundEmergency_within hfh (by
        rw [hd, hfrom, hce]
        exact ChunkBuffer.firstPast_none hp)
      rw [hd, hfrom, hce] at hwithin
      unfold bounded
      rw [hwithin]
      refine ⟨rfl, rfl, ?_⟩
      show handed.buffer.discarded + _ = _
      rw [hdisc, hq', show (q ++ w :: (rest ++ l)).length - q.length = (rest ++ l).length + 1 by simp]
    · have hq' : handed.buffer.queue = q ++ c :: (rest ++ l) := by rw [hlq, hq, List.append_assoc, List.cons_append]
      have hd : handed.buffer.discardWithdrawn f.pending = handed.buffer :=
        ChunkBuffer.discardWithdrawn_self fun k => absurd k hpend
      have hpast := State.boundEmergency_past hfh (c := c) (by
        rw [hd, hce]
        exact ChunkBuffer.firstPast_some hq' ho hpast hp)
      rw [hd, hce] at hpast
      unfold bounded
      rw [hpast]
      unfold State.emergencyDiscard
      dsimp only
      rw [State.endStreamAt_eq]
      have hfrom : (handed.setFilling cancelled).buffer.discardFrom c.seq = _ := ChunkBuffer.discardFrom_eq _ hq' hseq
      rw [show (State.setFilling { handed with buffer := handed.buffer } cancelled).buffer.discardFrom c.seq = _ from hfrom]
      refine ⟨rfl, _, rfl, rfl, rfl, if_neg hpend, rfl, ?_⟩
      intro e o' hlast ho'
      generalize hpos : o' + (16 + e.length) = pos
      rw [State.standingEnd_eq (by exact hlast) ho', hpos]
      show (if f.front ≤ pos / 512 ∧ pos % 512 ≠ 0 then (pos / 512 + 1) * 512 else pos) =
        if f.front ≤ pos / 512 then (pos + 511) / 512 * 512 else pos
      by_cases hfr : f.front ≤ pos / 512
      · rw [if_pos hfr]
        split <;> omega
      · rw [if_neg hfr, if_neg fun k => hfr k.1]
  · have hframe : handed.frame.accOpen = false ∧ handed.frame.acc = [] := by
      unfold handed
      split
      · rw [State.enqueueMotion_frame]; exact ⟨rfl, rfl⟩
      · exact ⟨rfl, rfl⟩
    have hem {k limit} (hk : ∀ f, s.clip.filling = some f →
        f.slot = k ∧ (f.enterEmergency s.clip.cfg.emergencyBudget).limit = limit) :
        (bounded.requestFlush bounded.buffer.lastQueued).Emergency k limit := by
      refine State.Emergency.requestFlush (State.boundEmergency_emergency ?_ hframe.1 hframe.2 ?_) _
      · rw [hclip]
      · rw [hfilling, hcfg]; exact hk
    obtain ⟨k, limit, hk⟩ : ∃ k limit, ∀ f, s.clip.filling = some f →
        f.slot = k ∧ (f.enterEmergency s.clip.cfg.emergencyBudget).limit = limit := by
      cases hf : s.clip.filling with
      | none => exact ⟨0, 0, nofun⟩
      | some f => exact ⟨_, _, fun g h => by cases h; exact ⟨rfl, rfl⟩⟩
    obtain ⟨e1, e2, e3, e4, e5⟩ := (hem hk).settleClip
    obtain ⟨c1, c2, -, c3, c4, -⟩ := State.conclude_outcome (bounded.requestFlush bounded.buffer.lastQueued)
    refine ⟨_, hexec, ?_, c3.trans e1, c4.trans e2, ?_, ?_, ?_⟩
    · obtain ⟨g, hg, -⟩ := (conclude_spec (bounded.requestFlush bounded.buffer.lastQueued)).2.2.2.2.2.2.2.2.1
      rw [hg]
      have hb := congrArg State.budget (beyondClip_requestFlush bounded bounded.buffer.lastQueued)
      have hb : (bounded.requestFlush bounded.buffer.lastQueued).budget = bounded.budget := hb
      show (bounded.requestFlush bounded.buffer.lastQueued).budget.orderPending = false
      rw [hb, State.boundEmergency_budget, hbud]
    · rw [c1]; exact e3
    · rw [c1, c2]; exact e4
    · intro f hf limit'
      obtain ⟨rfl, rfl⟩ := hk f hf
      have hrq := (bounded.requestFlush_queue bounded.buffer.lastQueued).1
      have hfh := hfilling.trans hf
      have empty (ha : s.frame.acc = []) : handed = begun := if_neg fun k => k.2 ha
      refine ⟨?_, fun ha hq c o hc ho => ?_, fun hq ha hp => ?_⟩
      · rw [c1]; exact e5
      · have hbq := State.boundEmergency_queue (u := handed) hfh (by rw [empty ha]; exact hq)
        rw [c2, ((hem hk).settleClip_queue (by rw [hrq]; exact fun c hc => (hbq c hc).1)).2, hrq] at hc
        have := (hbq c hc).2 o ho
        rw [hcfg] at this
        exact this
      · have hqb : begun.buffer.queue = [] := hq
        have hd : begun.buffer.discardWithdrawn f.pending = begun.buffer :=
          ChunkBuffer.discardWithdrawn_self fun _ c hc => by rw [hqb] at hc; cases hc
        have hb : bounded = begun.setFilling (f.enterEmergency s.clip.cfg.emergencyBudget) := by
          have hwithin := State.boundEmergency_within (s := begun) (f := f) hf (by
            rw [hd]
            exact ChunkBuffer.firstPast_none fun c o hc => by rw [hqb] at hc; cases hc)
          rw [hd] at hwithin
          exact (congrArg State.boundEmergency (empty ha)).trans hwithin
        have hlast : bounded.buffer.lastQueued = none := by
          rw [hb]
          unfold ChunkBuffer.lastQueued
          rw [show (State.setFilling begun _).buffer.queue = [] from hq]
          rfl
        have hset := (hem hk).settleClip_queue (by
          rw [hrq, hb]
          exact fun c hc => by rw [show (State.setFilling begun _).buffer.queue = [] from hq] at hc; cases hc)
        rw [c1, hset.1, hlast]
        show bounded.finishClose.clip = _
        have hnd : (f.enterEmergency s.clip.cfg.emergencyBudget).pending ≠ some .damaged := by
          show (if f.pending = some .damaged then some .damaged else none) ≠ some CloseCause.damaged
          rw [hp]
          decide
        have hfin : bounded.finishClose = (bounded.closeSegment .emergency).endClip .emergency := by
          rw [hb]
          unfold State.finishClose
          refine (if_pos (by rw [show (State.setFilling begun _).buffer.queue = [] from hq]; rfl)).trans ?_
          refine congrArg (fun r => ((State.setFilling begun _).closeSegment r).endClip .emergency) (if_neg ?_)
          show ¬decide ((f.enterEmergency s.clip.cfg.emergencyBudget).pending = some .damaged) = true
          rw [decide_eq_true_eq]
          exact hnd
        rw [hfin, hb]
        rfl

end Sys2Proof.Machine
end


section
/-! SUPPORT. FS_EDGE: the bands of a frame latched, the frame finished, the next one started (sections 3.5, 4.1). -/
namespace Sys2Proof.Machine

/-! ### A record offered -/

/-- What offering a record leaves: only the frame builder's lists, the buffer, the link and the free choices move. -/
theorem State.offerRecord_kept (s : State) (r : FrameRecord) : ∃ frame buffer link freeCount,
    s.offerRecord r = { s with frame := frame, buffer := buffer, link := link, freeCount := freeCount } ∧
    frame.lateFlags = s.frame.lateFlags ∧ frame.lateShocks = s.frame.lateShocks := by
  have enq (u : State) (recs : List FrameRecord) : ∃ buffer link freeCount,
      u.enqueueMotion recs = { u with buffer := buffer, link := link, freeCount := freeCount } := by
    unfold State.enqueueMotion State.chooseFree
    repeat' split
    all_goals exact ⟨_, _, _, rfl⟩
  unfold State.offerRecord State.accumulate
  simp only
  split
  · split
    · split
      · obtain ⟨b, l, n, h⟩ := enq { s with frame := { s.frame with
          sendList := s.frame.sendList ++ [r], lastNumber := some r.number, acc := [] } } (s.frame.acc ++ [r])
        exact ⟨_, _, _, _, h, rfl, rfl⟩
      · exact ⟨_, _, _, _, rfl, rfl, rfl⟩
    · exact ⟨_, _, _, _, rfl, rfl, rfl⟩
  · exact ⟨_, _, _, _, rfl, rfl, rfl⟩

/-- A state with another capture unit. -/
def State.withCapture (s : State) (c : CaptureUnit) : State := { s with capture := c }

/-- Offering a record does not look at the capture unit but for the clock. -/
theorem State.offerRecord_withCapture (s : State) {c : CaptureUnit} (h : c.clock = s.capture.clock) (r : FrameRecord) :
    (s.withCapture c).offerRecord r = (s.offerRecord r).withCapture c := by
  have enq (u : State) (hu : c.clock = u.capture.clock) (recs : List FrameRecord) :
      (u.withCapture c).enqueueMotion recs = (u.enqueueMotion recs).withCapture c := by
    have hn : (u.withCapture c).now = u.now := hu
    unfold State.enqueueMotion State.chooseFree
    simp only [hn]
    unfold State.withCapture
    dsimp only
    cases decide (0 < u.buffer.freeDescriptors) <;> cases decide (0 < u.buffer.free.length)
    · cases Config.freeBool u.freeCount <;> rfl
    · rfl
    · rfl
    · rfl
  unfold State.offerRecord
  by_cases hl : s.frame.sendList.length < 8
  · refine (if_pos hl).trans (.trans ?_ (congrArg (fun u : State => u.withCapture c) (if_pos hl).symm))
    unfold State.accumulate
    by_cases ho : s.frame.accOpen = true
    · refine (if_pos ho).trans (.trans ?_ (congrArg (fun u : State => u.withCapture c) (if_pos ho).symm))
      by_cases hp : s.clip.cfg.perChunk ≤ (s.frame.acc ++ [r]).length
      · refine (if_pos hp).trans (.trans ?_ (congrArg (fun u : State => u.withCapture c) (if_pos hp).symm))
        exact enq { s with frame := { s.frame with
          sendList := s.frame.sendList ++ [r], lastNumber := some r.number, acc := [] } } h _
      · refine (if_neg hp).trans (.trans ?_ (congrArg (fun u : State => u.withCapture c) (if_neg hp).symm))
        rfl
    · refine (if_neg ho).trans (.trans ?_ (congrArg (fun u : State => u.withCapture c) (if_neg ho).symm))
      rfl
  · refine (if_neg hl).trans (.trans ?_ (congrArg (fun u : State => u.withCapture c) (if_neg hl).symm))
    rfl

/-! ### Bands latched -/

/-- Bands latched into a record one after another. -/
def FrameRecord.latches (r : FrameRecord) (axes : Tri Integrator) (l : List BandDue) : FrameRecord :=
  l.foldl (fun r e => r.latch axes e.band) r

/-- Bands latched: an entry for each, and the held roll where the middle band is among them. -/
theorem FrameRecord.latches_eq (axes : Tri Integrator) (l : List BandDue) : ∀ r : FrameRecord,
    r.latches axes l = { r with
      entries := r.entries ++ l.map (fun _ => (axes.yaw.disp, axes.pitch.disp))
      roll := if ∃ e ∈ l, e.band = r.bands / 2 then axes.roll.disp else r.roll } := by
  induction l with
  | nil => intro r; simp [FrameRecord.latches]
  | cons e l ih =>
    intro r
    refine (ih (r.latch axes e.band)).trans ?_
    unfold FrameRecord.latch
    simp only [List.mem_cons, exists_eq_or_imp, List.map_cons, List.append_assoc, List.singleton_append]
    by_cases h1 : e.band = r.bands / 2 <;> by_cases h2 : ∃ d ∈ l, d.band = r.bands / 2 <;> simp [h1, h2]

theorem State.latchAll_eq (l : List BandDue) : ∀ s : State, s.latchAll l = { s with
    frame := { s.frame with record := s.frame.record.map (fun r => r.latches s.motion.axes l) } } := by
  induction l with
  | nil =>
    intro s
    cases h : s.frame.record <;> simp only [State.latchAll, FrameRecord.latches, List.foldl_nil, Option.map] <;>
      rw [← h]
  | cons e l ih =>
    intro s
    refine (ih (s.latch e.band)).trans ?_
    unfold State.latch
    cases s.frame.record <;> rfl

/-- The first bands of the list expire: each latches, and with the last band of the list the frame finishes. -/
theorem State.expireBands_eq (a : List BandDue) : ∀ {s : State} {b : List BandDue} {r : FrameRecord}, a ++ b ≠ [] →
    s.capture.bands = a ++ b → s.frame.record = some r → s.expireBands a.length =
      if b = [] then State.offerRecord
        { s with capture := { s.capture with bands := b }, frame := { s.frame with record := none } }
        (r.latches s.motion.axes a)
      else { s with
        capture := { s.capture with bands := b }
        frame := { s.frame with record := some (r.latches s.motion.axes a) } } := by
  induction a with
  | nil =>
    intro s b r hne hb hr
    rw [if_neg (by simpa using hne)]
    show s = { s with capture := { s.capture with bands := b }, frame := { s.frame with record := some r } }
    have hb : s.capture.bands = b := hb
    rw [← hb, ← hr]
  | cons e a ih =>
    intro s b r hne hb hr
    show State.expireBands a.length s.expireBand = _
    have he : s.expireBand = if (a ++ b).isEmpty then State.offerRecord
          { s with capture := { s.capture with bands := a ++ b }, frame := { s.frame with record := none } }
          (r.latch s.motion.axes e.band)
        else { s with
          capture := { s.capture with bands := a ++ b }
          frame := { s.frame with record := some (r.latch s.motion.axes e.band) } } := by
      have hb : s.capture.bands = e :: (a ++ b) := hb
      unfold State.expireBand
      rw [hb]
      unfold State.latch State.finishFrame
      simp only [hr, Option.map_some]
    rw [he]
    by_cases hab : a ++ b = []
    · obtain ⟨rfl, rfl⟩ := List.append_eq_nil_iff.mp hab
      rfl
    · rw [if_neg (by simpa using hab)]
      exact ih hab rfl rfl

end Sys2Proof.Machine
end


section
/-! SUPPORT. The settlement of FS_EDGE. -/
namespace Sys2Proof.Machine

/-! ### The integrators at a frame start (R41, R42) -/

theorem saturate16_eq (v : Int) : saturate16 v = max (-32768) (min 32767 v) := by
  unfold saturate16
  rw [clampInt_eq_max_min _ (by omega)]

/-- The margin clamp in cases. -/
theorem marginClamp_eq (l : Nat) (c : Int) :
    marginClamp l c = if c < -(l : Int) then -(l : Int) else if (l : Int) < c then (l : Int) else c := rfl

/-- What a frame start makes of one axis, given whether a LENS copy waited: it is re-based, and brought into line. -/
def Integrator.framed (waited : Bool) (a : LensAxis) (i : Integrator) : Integrator :=
  let clamps := waited && (decide (a.margin = 0) || decide (a.margin < i.err.natAbs))
  let c := marginClamp a.margin i.err
  { i with
    angle := 0, path := if clamps then c else i.path - i.angle
    err := if clamps then c else i.err, errPrev := if clamps then c else i.errPrev
    disp := if waited then max (-32768) (min 32767 (roundHalfAway (c * (a.gain : Int)) (2 ^ 24))) else i.disp }

theorem marginMark_eq (l : Nat) (c : Int) : marginMark l c = (decide (l = 0) || decide (l < c.natAbs)) := by
  rw [Bool.eq_iff_iff, marginMark_iff, Bool.or_eq_true, decide_eq_true_eq, decide_eq_true_eq]

theorem Integrator.framed_waited (a : LensAxis) (i : Integrator) : i.framed true a = i.rebase.lineUp a := by
  have he : i.rebase.err = i.err := rfl
  unfold framed lineUp displacement
  simp only [saturate16_eq, he, marginMark_eq, Bool.true_and, if_true]
  cases decide (a.margin = 0) || decide (a.margin < i.err.natAbs)
  · rfl
  · simp only [if_true, rebase, Int.zero_add]

/-- The motion computer at a frame start, field by field (R27, R40). -/
theorem MotionComputer.startFrame_eq (m : MotionComputer) : m.startFrame = { m with
    lens := ⟨m.lens.newest, none⟩, bias := ⟨m.bias.newest, none⟩, mount := ⟨m.mount.newest, none⟩
    axes := ⟨m.axes.yaw.framed m.lens.pending.isSome m.lens.newest.axes.yaw,
      m.axes.pitch.framed m.lens.pending.isSome m.lens.newest.axes.pitch,
      m.axes.roll.framed m.lens.pending.isSome m.lens.newest.axes.roll⟩ } := by
  unfold startFrame
  cases m.lens.pending.isSome
  · rfl
  · simp only [if_true, Integrator.framed_waited]
    rfl

/-- The MARGIN marks of a frame start. -/
theorem MotionComputer.startMarks_eq (m : MotionComputer) : m.startMarks =
    (let clamps := fun (a : LensAxis) (i : Integrator) =>
      m.lens.pending.isSome && (decide (a.margin = 0) || decide (a.margin < i.err.natAbs))
    ⟨clamps m.lens.newest.axes.yaw m.axes.yaw, clamps m.lens.newest.axes.pitch m.axes.pitch,
      clamps m.lens.newest.axes.roll m.axes.roll⟩) := by
  unfold startMarks
  cases m.lens.pending.isSome
  · rfl
  · simp only [if_true, Bool.true_and, ← marginMark_eq]
    rfl

/-! ### The old frame and the new one -/

/-- The old frame with bands outstanding: they latch, and the record is offered TRUNCATED (R12). -/
theorem State.truncateFrame_eq (u : State) : u.truncateFrame = State.withCapture
    (match u.frame.record with
      | none => u
      | some r => if u.capture.bands = [] then u else
        State.offerRecord { u with frame := { u.frame with record := none } }
          { r.latches u.motion.axes u.capture.bands with flags := { r.flags with truncated := true } })
    { u.capture with bands := [] } := by
  unfold State.truncateFrame
  cases hb : u.capture.bands with
  | nil =>
    have hu : u.withCapture { u.capture with bands := [] } = u := by rw [← hb]; rfl
    cases u.frame.record <;> exact hu.symm
  | cons e es =>
    simp only [List.isEmpty_cons, Bool.false_eq_true, if_false, State.latchAll_eq, State.finishFrame, reduceCtorEq]
    cases hr : u.frame.record with
    | none =>
      exact congrArg (fun o => State.withCapture { u with frame := { u.frame with record := o } }
        { u.capture with bands := [] }) hr.symm
    | some r =>
      simp only [Option.map_some, FrameRecord.latches_eq]
      exact State.offerRecord_withCapture { u with frame := { u.frame with record := none } }
        (c := { u.capture with bands := [] }) rfl _

/-- The bands of the frame that an edge taken now starts (R10). -/
def State.newBands (u : State) : List BandDue := buildBands u.motion.lens.newest u.now

/-- The record that an edge taken now opens, the bands due at once latched (R10, R48). -/
def State.newRecord (u : State) : FrameRecord :=
  FrameRecord.latches {
      number := u.frame.nextNumber, stamp := u.now, bands := u.motion.lens.newest.bands
      entries := [], roll := 0, shocks := shockCountAdd 0 u.frame.lateShocks
      flags := (startFlags (decide (u.capture.dr.cadence = .lost)) u.motion.startFrame.uncalibrated
        u.motion.startMarks).union u.frame.lateFlags }
    u.motion.startFrame.axes (u.newBands.takeWhile (dueAtOnce u.now))

/-- The frame that an edge taken now starts, with the record given (R40, R48). -/
def State.framed (u : State) (record : Option FrameRecord) : State := { u with
  motion := u.motion.startFrame
  capture := { u.capture with bands := u.newBands.dropWhile (dueAtOnce u.now) }
  frame := { u.frame with record := record, inFrame := true, lateFlags := .clear, lateShocks := 0 } }

/-- The next frame started: the record opened takes the bands due at once, and is offered where these are all. -/
theorem State.startFrame_eq (u : State) (hb : 0 < u.motion.lens.newest.bands) : u.startFrame =
    if u.newBands.dropWhile (dueAtOnce u.now) = [] then (u.framed none).offerRecord u.newRecord
    else u.framed (some u.newRecord) := by
  have hl : u.motion.startFrame.lens.active = u.motion.lens.newest :=
    congrArg (fun m : MotionComputer => m.lens.active) u.motion.startFrame_eq
  have hb : u.newBands ≠ [] := by
    unfold State.newBands buildBands
    simp only [ne_eq, List.map_eq_nil_iff, List.range_eq_nil]
    exact Nat.ne_of_gt hb
  have hsplit : u.newBands = u.newBands.takeWhile (dueAtOnce u.now) ++ u.newBands.dropWhile (dueAtOnce u.now) :=
    List.takeWhile_append_dropWhile.symm
  unfold State.startFrame
  show State.expireBands ((buildBands u.motion.startFrame.lens.active u.now).takeWhile (dueAtOnce u.now)).length _ = _
  rw [hl]
  exact State.expireBands_eq _ (fun k => hb (hsplit.trans k)) hsplit rfl

/-- The loss deadline set again, over a frame started. -/
theorem State.rearmFs_eq (u : State) : u.rearmFs = u.withCapture { u.capture with
    fs := { u.capture.fs with
      deadline := some (later u.capture.fs.last (4 * u.motion.lens.active.framePeriod)) } } := rfl

theorem State.offerRecord_rearmFs (u : State) (r : FrameRecord) : (u.offerRecord r).rearmFs = u.rearmFs.offerRecord r := by
  obtain ⟨_, _, _, _, h, -, -⟩ := u.offerRecord_kept r
  have hc : (u.offerRecord r).capture = u.capture := by rw [h]
  have hm : (u.offerRecord r).motion = u.motion := by rw [h]
  rw [State.rearmFs_eq, State.rearmFs_eq, hc, hm]
  refine (State.offerRecord_withCapture u ?_ r).symm
  rfl

theorem MotionComputer.uncalibrated_eq (m : MotionComputer) : m.uncalibrated = decide (m.lens.active.axes.yaw.gain = 0 ∨
    m.lens.active.axes.pitch.gain = 0 ∨ m.lens.active.axes.roll.gain = 0) := by
  unfold uncalibrated Tri.or Tri.map
  rw [Bool.decide_or, Bool.decide_or, Bool.or_assoc]

/-- Settles O10: the edge judged, the old frame truncated, the new one started. -/
theorem fsEdge : Obligations.FsEdge := by
  intro s
  refine ⟨fun h => (exec_eq _ s).trans (congrArg _ (if_pos h)), fun hp ha => ?_, fun hp ha hb => ?_⟩
  · refine (exec_eq _ s).trans (congrArg _ ((if_neg (by simp [hp])).trans (if_neg ?_)))
    show ¬s.imu.active = true
    simp [ha]
  intro lens fs d period judged steady locks told offer ended clamps based yaw pitch roll bands atOnce late lost
    uncalibrated
  let edge : Capture := { fs with
    prev := fs.last, last := s.now, count := fs.count + 1, edgeSeen := true
    cadence := if locks then .locked else fs.cadence
    lockRun := if judged then (if steady ∧ fs.lockRun < 2 then fs.lockRun + 1 else 0) else fs.lockRun }
  have hexec : exec .fsEdge s = .next (State.conclude
      (told.withCapture { s.capture with fs := edge }).truncateFrame.startFrame.rearmFs) := by
    refine (exec_eq _ s).trans (congrArg _ ((if_neg (by simp [hp])).trans ((if_pos ha).trans ?_)))
    refine congrArg (fun u : State => u.truncateFrame.startFrame.rearmFs.conclude) ?_
    have hjudge : (fs.take s.now).judge period = edge :=
      Capture.take_judge fs s.now period judged steady locks Iff.rfl Iff.rfl Iff.rfl
    show State.raiseIf (s.withCapture { s.capture with fs := (fs.take s.now).judge period })
      (decide (((fs.take s.now).judge period).cadence ≠ fs.cadence))
      (.cadence .fs ((fs.take s.now).judge period).cadence s.now) = _
    rw [hjudge]
    by_cases hk : locks
    · have hc : edge.cadence = .locked := if_pos hk
      have hl : fs.cadence = .lost := hk.1.2
      rw [hc, hl]
      unfold told
      rw [decide_eq_true hk]
      rfl
    · have hc : edge.cadence = fs.cadence := if_neg hk
      rw [hc, decide_eq_false (not_not.mpr rfl)]
      unfold told
      rw [decide_eq_false hk]
      rfl
  obtain ⟨l, htold⟩ : ∃ l, told = { s with link := l } := by
    unfold told State.raiseIf
    split <;> exact ⟨_, rfl⟩
  clear_value told
  subst htold
  have htrunc : (State.withCapture { s with link := l } { s.capture with fs := edge }).truncateFrame =
      ended.withCapture { s.capture with fs := edge, bands := [] } := by
    refine (State.truncateFrame_eq _).trans ?_
    rw [show (State.withCapture { s with link := l } { s.capture with fs := edge }).frame.record = s.frame.record from rfl]
    unfold ended
    cases s.frame.record with
    | none => rfl
    | some r =>
      by_cases hb : s.capture.bands = []
      · simp only [if_pos hb]
        exact (congrArg (fun u : State => u.withCapture { s.capture with fs := edge, bands := [] }) (if_pos hb)).trans rfl
      · simp only [if_neg hb]
        refine (congrArg (fun u : State => u.withCapture { s.capture with fs := edge, bands := [] })
          ((if_neg hb).trans (State.offerRecord_withCapture
            { s with link := l, frame := { s.frame with record := none } } (c := { s.capture with fs := edge }) rfl
            { r.latches s.motion.axes s.capture.bands with flags := { r.flags with truncated := true } }))).trans ?_
        rw [FrameRecord.latches_eq]
        rfl
  obtain ⟨fr, bf, li, fc, hended, hflags, hshocks⟩ : ∃ frame buffer link freeCount,
      ended = { s with frame := frame, buffer := buffer, link := link, freeCount := freeCount } ∧
      frame.lateFlags = s.frame.lateFlags ∧ frame.lateShocks = s.frame.lateShocks := by
    unfold ended
    cases s.frame.record with
    | none => exact ⟨_, _, _, _, rfl, rfl, rfl⟩
    | some r =>
      by_cases hb : s.capture.bands = []
      · simp only [if_pos hb]
        exact ⟨_, _, _, _, rfl, rfl, rfl⟩
      · simp only [if_neg hb]
        exact State.offerRecord_kept _ _
  rw [htrunc] at hexec
  clear_value ended
  subst hended
  have hat : dueAtOnce s.now = atOnce := funext fun e => (Bool.decide_or _ _).symm
  have hm : s.motion.startFrame = { s.motion with
      lens := ⟨lens, none⟩, bias := ⟨s.motion.bias.newest, none⟩, mount := ⟨s.motion.mount.newest, none⟩
      axes := ⟨yaw, pitch, roll⟩ } := MotionComputer.startFrame_eq _
  let e : State := State.withCapture { s with frame := fr, buffer := bf, link := li, freeCount := fc }
    { s.capture with fs := edge, bands := [] }
  have hbands : e.newBands = bands := rfl
  have hrecord : e.newRecord = {
      number := match fr.lastNumber with | none => 1 | some n => n + 1
      stamp := s.now, bands := lens.bands, shocks := min s.frame.lateShocks 255
      roll := if ∃ d ∈ bands.takeWhile atOnce, d.band = lens.bands / 2 then roll.disp else 0
      entries := (bands.takeWhile atOnce).map (fun _ => (yaw.disp, pitch.disp))
      flags := {
        marginX := clamps lens.axes.yaw s.motion.axes.yaw || late.marginX
        marginY := clamps lens.axes.pitch s.motion.axes.pitch || late.marginY
        marginRoll := clamps lens.axes.roll s.motion.axes.roll || late.marginRoll
        saturated := late.saturated, gap := lost || late.gap, truncated := late.truncated, shock := late.shock
        uncalibrated := decide uncalibrated || late.uncalibrated, cadenceLost := lost || late.cadenceLost } } := by
    unfold State.newRecord
    rw [FrameRecord.latches_eq, hbands, show dueAtOnce e.now = atOnce from hat, show e.motion.startFrame = _ from hm,
      show e.motion.startMarks = _ from s.motion.startMarks_eq, show e.frame.lateFlags = late from hflags,
      show e.frame.lateShocks = s.frame.lateShocks from hshocks, MotionComputer.uncalibrated_eq, shockCountAdd,
      Nat.zero_add]
    rfl
  refine ⟨if ∃ d ∈ bands.takeWhile atOnce, d.band = lens.bands / 2 then roll.disp else 0, fun h => if_pos h, ?_⟩
  intro record rest begun
  have hbegun {o : Option FrameRecord} (h : (if rest = [] then none else some record) = o) :
      (e.framed o).rearmFs = begun := by
    unfold State.framed
    rw [hbands, show dueAtOnce e.now = atOnce from hat, show e.motion.startFrame = _ from hm, State.rearmFs_eq]
    unfold begun
    rw [h]
    rfl
  have hstart := e.startFrame_eq hb
  rw [hbands, show dueAtOnce e.now = atOnce from hat, hrecord] at hstart
  rw [hexec]
  refine congrArg (fun u : State => Host.Outcome.next u.conclude) ?_
  show e.startFrame.rearmFs = _
  rw [hstart]
  by_cases hr : rest = []
  · rw [if_pos hr, if_pos hr, State.offerRecord_rearmFs, hbegun (if_pos hr)]
    rfl
  · rw [if_neg hr, if_neg hr]
    exact hbegun (if_neg hr)

end Sys2Proof.Machine
end


section
/-! SUPPORT. A sample on the integrators, and the protection that a shock event asks for (sections 2.6, 6.8). -/
namespace Sys2Proof.Machine

/-! ### The steps of a sample, axis by axis (R30) -/

/-- The value of one axis: yaw, pitch, roll. -/
def Tri.at {α : Type} (t : Tri α) : Fin 3 → α
  | 0 => t.yaw
  | 1 => t.pitch
  | 2 => t.roll

/-- An integrator after the first k fill steps of a gap: 8 at the held rate and the rest at 0. -/
def Integrator.filled (a : LensAxis) (held : Int) (k : Nat) (i : Integrator) : Integrator :=
  Nat.repeat (fun j => j.step a 0) (k - 8) (Nat.repeat (fun j => j.step a held) (min k 8) i)

theorem repeat_comm {α : Type} (f : α → α) (n : Nat) (x : α) : Nat.repeat f n (f x) = f (Nat.repeat f n x) := by
  induction n with
  | zero => rfl
  | succ n ih => exact congrArg f ih

theorem Stepped.step_at (lens : Lens) (r : Tri Int) (x : Stepped) (d : Fin 3) :
    (x.step lens r).axes.at d = (x.axes.at d).step (lens.axes.at d) (r.at d) ∧
    (x.step lens r).marks.at d = (x.marks.at d || (x.axes.at d).stepMark (lens.axes.at d) (r.at d)) := by
  match d with
  | 0 => exact ⟨rfl, rfl⟩
  | 1 => exact ⟨rfl, rfl⟩
  | 2 => exact ⟨rfl, rfl⟩

/-- Steps at the same rates: where each axis arrives, and that it is marked where any of them marks it. -/
theorem Stepped.steps_at (lens : Lens) (r : Tri Int) (d : Fin 3) (n : Nat) : ∀ x : Stepped,
    (x.steps lens r n).axes.at d = Nat.repeat (fun j => j.step (lens.axes.at d) (r.at d)) n (x.axes.at d) ∧
    ((x.steps lens r n).marks.at d = true ↔ x.marks.at d = true ∨ ∃ k, k < n ∧
      (Nat.repeat (fun j => j.step (lens.axes.at d) (r.at d)) k (x.axes.at d)).stepMark (lens.axes.at d) (r.at d) =
        true) := by
  induction n with
  | zero => exact fun x => ⟨rfl, by simp [Stepped.steps]⟩
  | succ n ih =>
    intro x
    obtain ⟨h1, h2⟩ := ih (x.step lens r)
    obtain ⟨k1, k2⟩ := x.step_at lens r d
    refine ⟨h1.trans (by rw [k1, repeat_comm]; rfl), h2.trans ?_⟩
    rw [k1, k2, Bool.or_eq_true, or_assoc]
    refine or_congr_right ⟨?_, ?_⟩
    · rintro (h | ⟨k, hk, h⟩)
      · exact ⟨0, Nat.succ_pos n, h⟩
      · rw [repeat_comm] at h
        exact ⟨k + 1, Nat.succ_lt_succ hk, h⟩
    · rintro ⟨k, hk, h⟩
      cases k with
      | zero => exact .inl h
      | succ k =>
        refine .inr ⟨k, Nat.lt_of_succ_lt_succ hk, ?_⟩
        rw [repeat_comm]
        exact h

/-- The fill steps of a gap and the sample's own step on one axis. -/
theorem Stepped.sample_at (lens : Lens) (held own : Tri Int) (m : Nat) (x : Stepped) (d : Fin 3) :
    (Stepped.sample lens held own m x).axes.at d =
      ((x.axes.at d).filled (lens.axes.at d) (held.at d) m).step (lens.axes.at d) (own.at d) ∧
    ((Stepped.sample lens held own m x).marks.at d = true ↔ x.marks.at d = true ∨
      (∃ k, k < m ∧ ((x.axes.at d).filled (lens.axes.at d) (held.at d) k).stepMark (lens.axes.at d)
        (if k < 8 then held.at d else 0) = true) ∨
      ((x.axes.at d).filled (lens.axes.at d) (held.at d) m).stepMark (lens.axes.at d) (own.at d) = true) := by
  obtain ⟨h1, h2⟩ := x.steps_at lens held d (min m 8)
  obtain ⟨k1, k2⟩ := (x.steps lens held (min m 8)).steps_at lens ⟨0, 0, 0⟩ d (m - 8)
  obtain ⟨l1, l2⟩ := ((x.steps lens held (min m 8)).steps lens ⟨0, 0, 0⟩ (m - 8)).step_at lens own d
  have h0 : Tri.at (⟨0, 0, 0⟩ : Tri Int) d = 0 := by
    match d with
    | 0 => rfl
    | 1 => rfl
    | 2 => rfl
  rw [h0, h1] at k1 k2
  unfold Stepped.sample
  refine ⟨l1.trans (by rw [k1]; rfl), ?_⟩
  rw [l2, Bool.or_eq_true, k2, h2, k1, or_assoc, or_assoc]
  refine or_congr_right ?_
  rw [← or_assoc]
  refine or_congr_left ⟨?_, ?_⟩
  · rintro (⟨k, hk, h⟩ | ⟨k, hk, h⟩)
    · refine ⟨k, by omega, ?_⟩
      have hk8 : k < 8 := by omega
      rw [Integrator.filled, if_pos hk8, show k - 8 = 0 by omega, show min k 8 = k by omega]
      exact h
    · refine ⟨8 + k, by omega, ?_⟩
      rw [Integrator.filled, if_neg (by omega), show 8 + k - 8 = k by omega, show min (8 + k) 8 = min m 8 by omega]
      exact h
  · rintro ⟨k, hk, h⟩
    by_cases hk8 : k < 8
    · rw [Integrator.filled, if_pos hk8, show k - 8 = 0 by omega, show min k 8 = k by omega] at h
      exact .inl ⟨k, by omega, h⟩
    · rw [Integrator.filled, if_neg hk8, show min k 8 = min m 8 by omega] at h
      exact .inr ⟨k - 8, by omega, h⟩

/-! ### Protection asked for by a shock event (R98) -/

/-- What asking for a slot's protection makes of the clip record. -/
structure State.Asked (s t : State) (i : Nat) (time : Time) : Prop where
  only : ∃ slots n ns, t = { s with
    clip := { s.clip with slots := slots, protectRefused := n }, link := { s.link with notices := ns } }
  same : ∀ j, j ≠ i → t.clip.slot j = s.clip.slot j
  slot : i < 64 → t.clip.slot i = { s.clip.slot i with
    prot := if (s.clip.slot i).prot = none ∧ s.clip.protectedCount < s.clip.cfg.protectLimit then some .shock
      else (s.clip.slot i).prot }
  count : i < 64 → t.clip.protectedCount =
    if (s.clip.slot i).prot = none ∧ s.clip.protectedCount < s.clip.cfg.protectLimit then s.clip.protectedCount + 1
    else s.clip.protectedCount
  refused : t.clip.protectRefused = s.clip.protectRefused +
    if (s.clip.slot i).prot = none ∧ s.clip.cfg.protectLimit ≤ s.clip.protectedCount then 1 else 0
  told : (s.clip.slot i).prot = none → s.clip.cfg.protectLimit ≤ s.clip.protectedCount →
    t.Tells (.protectRefused i time)
  tells : ∀ n, n.kind ≠ (Notice.protectRefused i time).kind → s.Tells n → t.Tells n
  still : (s.clip.slot i).prot ≠ none → t = s

theorem State.protectShock_asked (s : State) (i : Nat) (time : Time) : s.Asked (s.protectShock i time) i time := by
  unfold State.protectShock
  simp only
  split <;> rename_i hp
  · have hp : ¬(s.clip.slot i).prot = none := fun k => by rw [k] at hp; cases hp
    exact ⟨⟨_, _, _, rfl⟩, fun _ _ => rfl, fun _ => by rw [if_neg fun k => hp k.1], fun _ => (if_neg fun k => hp k.1).symm,
      by rw [if_neg fun k => hp k.1]; exact (BitVec.add_zero _).symm, fun h => absurd h hp, fun _ _ h => h, fun _ => rfl⟩
  · have hp : (s.clip.slot i).prot = none := by simpa using hp
    split <;> rename_i hl
    · refine ⟨⟨_, _, _, rfl⟩, fun j hj => ?_, fun hi => ?_, fun hi => ?_, ?_, fun _ h => absurd h (not_le.mpr hl),
        fun _ _ h => h, fun h => absurd hp h⟩
      · exact (s.clip.setSlot_slot i j _).trans (if_neg fun k => hj k.1.symm)
      · rw [if_pos ⟨hp, hl⟩]
        exact (s.clip.setSlot_slot i i _).trans (if_pos ⟨rfl, hi⟩)
      · rw [if_pos ⟨hp, hl⟩]
        refine (s.clip.protectedCount_setSlot hi _).trans ?_
        rw [hp]
        rfl
      · rw [if_neg fun k => absurd k.2 (not_le.mpr hl)]
        exact (BitVec.add_zero _).symm
    · refine ⟨⟨_, _, _, rfl⟩, fun _ _ => rfl, fun _ => ?_, fun _ => ?_, ?_, fun _ _ => State.tells_raise _ _,
        fun n hn h => State.Tells.raise hn h, fun h => absurd hp h⟩
      · rw [if_neg fun k => hl k.2]
        rfl
      · rw [if_neg fun k => hl k.2]
        rfl
      · rw [if_pos ⟨hp, not_lt.mp hl⟩]
        rfl

/-! ### The newest CLOSED slot (R98) -/

/-- A later close sequence wins wherever it stands. -/
theorem foldl_newerSlot {l : List (Nat × Slot)} {x : Nat × Slot} (hx : x ∈ l)
    (hl : ∀ y ∈ l, y ≠ x → optWord y.2.closeSeq < optWord x.2.closeSeq) (a : Option (Nat × Slot))
    (ha : ∀ y, a = some y → y ≠ x → optWord y.2.closeSeq < optWord x.2.closeSeq) :
    l.foldl newerSlot a = some x := by
  have stays : ∀ l : List (Nat × Slot), (∀ y ∈ l, y ≠ x → optWord y.2.closeSeq < optWord x.2.closeSeq) →
      l.foldl newerSlot (some x) = some x := by
    intro l
    induction l with
    | nil => intro _; rfl
    | cons y l ih =>
      intro h
      have hy : newerSlot (some x) y = some x := by
        unfold newerSlot
        by_cases hyx : y = x
        · simp [hyx]
        · exact if_neg (not_lt.mpr (le_of_lt (h y (by simp) hyx)))
      rw [List.foldl_cons, hy]
      exact ih fun z hz => h z (List.mem_cons_of_mem y hz)
  induction l generalizing a with
  | nil => cases hx
  | cons y l ih =>
    rw [List.foldl_cons]
    by_cases hyx : y = x
    · have hy : newerSlot a y = some x := by
        unfold newerSlot
        cases a with
        | none => rw [hyx]
        | some b =>
          by_cases hb : b = x
          · simp [hb, hyx]
          · simp only
            rw [hyx, if_pos (ha b rfl hb)]
      rw [hy]
      exact stays l fun z hz => hl z (List.mem_cons_of_mem y hz)
    · refine ih ((List.mem_cons.mp hx).resolve_left fun k => hyx k.symm) (fun z hz => hl z (List.mem_cons_of_mem y hz)) _ ?_
      intro z hz hzx
      unfold newerSlot at hz
      split at hz
      · cases hz
        exact hl _ List.mem_cons_self hyx
      · split at hz
        · cases hz
          exact hl _ List.mem_cons_self hyx
        · cases hz
          exact ha _ rfl hzx

/-- The CLOSED slot with a close sequence above every other's. -/
theorem ClipRecorder.previous_eq {c : ClipRecorder} {i : Nat} (hi : i < 64) (hc : (c.slot i).state = .closed)
    (h : ∀ j, j ≠ i → (c.slot j).state = .closed → optWord (c.slot j).closeSeq < optWord (c.slot i).closeSeq) :
    c.previous = some (i, c.slot i) := by
  unfold ClipRecorder.previous
  refine foldl_newerSlot ?_ ?_ none nofun
  · rw [List.mem_filter, c.numbered_eq]
    exact ⟨List.mem_map.mpr ⟨i, by simpa using hi, rfl⟩, by simpa using hc⟩
  · intro y hy hne
    rw [List.mem_filter, c.numbered_eq] at hy
    obtain ⟨hm, hs⟩ := hy
    obtain ⟨j, -, rfl⟩ := List.mem_map.mp hm
    exact h j (fun k => hne (by rw [k])) (by simpa using hs)

/-- What is found is a CLOSED slot of the table. -/
theorem ClipRecorder.previous_spec {c : ClipRecorder} {x : Nat × Slot} (h : c.previous = some x) :
    x.1 < 64 ∧ x.2 = c.slot x.1 ∧ (c.slot x.1).state = .closed := by
  have key : ∀ (l : List (Nat × Slot)) (a : Option (Nat × Slot)), l.foldl newerSlot a = some x → x ∈ l ∨ a = some x := by
    intro l
    induction l with
    | nil => exact fun a h => .inr h
    | cons y l ih =>
      intro a h
      rcases ih _ h with h | h
      · exact .inl (List.mem_cons_of_mem y h)
      · unfold newerSlot at h
        split at h
        · cases h; exact .inl (by simp)
        · split at h
          · cases h; exact .inl (by simp)
          · cases h; exact .inr rfl
  have hx := (key _ _ h).resolve_right nofun
  rw [List.mem_filter, c.numbered_eq] at hx
  obtain ⟨hm, hs⟩ := hx
  obtain ⟨j, hj, rfl⟩ := List.mem_map.mp hm
  exact ⟨by simpa using hj, rfl, by simpa using hs⟩

end Sys2Proof.Machine
end


section
/-! SUPPORT. The settlement of READ_COMPLETE: a sample's marks, and a shock event's two protections. -/
namespace Sys2Proof.Machine

/-! ### Marks of a sample (R49) -/

/-- The builder after a sample's marks and, where an event fired, its shock mark. -/
theorem FrameBuilder.marked_spec (f : FrameBuilder) (m : Marks) (b : Bool) :
    ∃ g, g = (if b then (f.mark m).shockMark else f.mark m) ∧
    g = { f with record := g.record, lateFlags := g.lateFlags, lateShocks := g.lateShocks } ∧
    (∀ r, f.record = some r → g.lateFlags = f.lateFlags ∧ g.lateShocks = f.lateShocks ∧
      g.record = some { r with
        flags := { r.flags.mark m with shock := r.flags.shock || b }
        shocks := if b = true then min (r.shocks + 1) 255 else r.shocks }) ∧
    (f.record = none → g.record = none ∧
      (f.inFrame = true → g.lateFlags = { f.lateFlags.mark m with shock := f.lateFlags.shock || b } ∧
        g.lateShocks = if b = true then min (f.lateShocks + 1) 255 else f.lateShocks) ∧
      (f.inFrame = false → g.lateFlags = f.lateFlags ∧ g.lateShocks = f.lateShocks)) := by
  refine ⟨_, rfl, ?_⟩
  obtain ⟨record, inFrame, lateFlags, lateShocks, sendList, withheld, lastNumber, accOpen, acc⟩ := f
  cases record with
  | some r =>
    cases b
    · refine ⟨rfl, fun r' h => ?_, nofun⟩
      cases h
      refine ⟨rfl, rfl, ?_⟩
      rw [Bool.or_false]
      rfl
    · refine ⟨rfl, fun r' h => ?_, nofun⟩
      cases h
      refine ⟨rfl, rfl, ?_⟩
      rw [Bool.or_true]
      rfl
  | none =>
    cases inFrame
    · cases b
      · exact ⟨rfl, nofun, fun _ => ⟨rfl, nofun, fun _ => ⟨rfl, rfl⟩⟩⟩
      · exact ⟨rfl, nofun, fun _ => ⟨rfl, nofun, fun _ => ⟨rfl, rfl⟩⟩⟩
    · cases b
      · refine ⟨rfl, nofun, fun _ => ⟨rfl, fun _ => ⟨?_, rfl⟩, nofun⟩⟩
        rw [Bool.or_false]
        rfl
      · refine ⟨rfl, nofun, fun _ => ⟨rfl, fun _ => ⟨?_, rfl⟩, nofun⟩⟩
        rw [Bool.or_true]
        rfl

/-! ### The two steps of a shock event's protection (R98) -/

/-- A slot's shock count changes neither the number of protected slots nor any other slot. -/
theorem ClipRecorder.count_shocks (c : ClipRecorder) (i n : Nat) :
    (c.setSlot i { c.slot i with shocks := n }).protectedCount = c.protectedCount := by
  by_cases hi : i < 64
  · rw [c.protectedCount_setSlot hi]
    have h := c.protectedCount_setSlot hi (c.slot i)
    rw [show c.setSlot i (c.slot i) = c from congrArg (fun v => { c with slots := v }) (c.setSlot_self i)] at h
    exact h.symm
  · rw [c.setSlot_outside (Nat.not_lt.mp hi)]

/-- Whether the FILLING segment asks for protection. -/
def ClipRecorder.asks (c : ClipRecorder) : Bool := c.filling.any (fun f => (c.slot f.slot).prot.isNone)

/-- Step 1: what the FILLING segment's shock count and protection leave. -/
structure State.Step1 (s t : State) (time : Time) : Prop where
  only : ∃ slots n ns, t = { s with
    clip := { s.clip with slots := slots, protectRefused := n }, link := { s.link with notices := ns } }
  idle : s.clip.filling = none → t = s
  same : ∀ j, s.clip.filling.map Filling.slot ≠ some j → t.clip.slot j = s.clip.slot j
  state : ∀ j, (t.clip.slot j).state = (s.clip.slot j).state
  slot : ∀ f, s.clip.filling = some f → f.slot < 64 → t.clip.slot f.slot = { s.clip.slot f.slot with
    shocks := min ((s.clip.slot f.slot).shocks + 1) 65535
    prot := if (s.clip.slot f.slot).prot = none ∧ s.clip.protectedCount < s.clip.cfg.protectLimit then some .shock
      else (s.clip.slot f.slot).prot }
  count : (∀ f, s.clip.filling = some f → f.slot < 64) → t.clip.protectedCount =
    if s.clip.asks = true ∧ s.clip.protectedCount < s.clip.cfg.protectLimit then s.clip.protectedCount + 1
    else s.clip.protectedCount
  refused : t.clip.protectRefused = s.clip.protectRefused +
    if s.clip.asks = true ∧ s.clip.cfg.protectLimit ≤ s.clip.protectedCount then 1 else 0
  told : ∀ f, s.clip.filling = some f → s.clip.asks = true → s.clip.cfg.protectLimit ≤ s.clip.protectedCount →
    t.Tells (.protectRefused f.slot time)
  tells : ∀ n, n.kind ≠ (Notice.protectRefused 0 time).kind → s.Tells n → t.Tells n

theorem State.shockFilling_step1 (s : State) (time : Time) : s.Step1 (s.shockFilling time) time := by
  cases hf : s.clip.filling with
  | none =>
    have hsame : s.shockFilling time = s := by unfold State.shockFilling; rw [hf]
    have hasks : s.clip.asks = false := by unfold ClipRecorder.asks; rw [hf]; rfl
    rw [hsame]
    exact ⟨⟨_, _, _, rfl⟩, fun _ => rfl, fun _ _ => rfl, fun _ => rfl, fun f h => absurd (hf.symm.trans h) nofun,
      fun _ => by rw [hasks, if_neg (by simp)], by rw [hasks, if_neg (by simp)]; exact (BitVec.add_zero _).symm,
      fun f h => absurd (hf.symm.trans h) nofun, fun _ _ h => h⟩
  | some f =>
    have hstep : s.shockFilling time = State.protectShock (s.setSlot f.slot { s.clip.slot f.slot with
        shocks := min ((s.clip.slot f.slot).shocks + 1) 65535 }) f.slot time := by
      unfold State.shockFilling; rw [hf]
    have hslot (j : Nat) := s.clip.setSlot_slot f.slot j { s.clip.slot f.slot with
      shocks := min ((s.clip.slot f.slot).shocks + 1) 65535 }
    have hcount := s.clip.count_shocks f.slot (min ((s.clip.slot f.slot).shocks + 1) 65535)
    have hasks : s.clip.asks = true ↔ (s.clip.slot f.slot).prot = none := by
      unfold ClipRecorder.asks
      rw [hf]
      exact Option.isNone_iff_eq_none
    obtain ⟨honly, hother, hown, hmore, href, htold, htells, -⟩ := State.protectShock_asked
      (s.setSlot f.slot { s.clip.slot f.slot with shocks := min ((s.clip.slot f.slot).shocks + 1) 65535 }) f.slot time
    rw [← hstep] at honly hother hown hmore href htold htells
    have hclip : (s.setSlot f.slot { s.clip.slot f.slot with
        shocks := min ((s.clip.slot f.slot).shocks + 1) 65535 }).clip = s.clip.setSlot f.slot { s.clip.slot f.slot with
          shocks := min ((s.clip.slot f.slot).shocks + 1) 65535 } := rfl
    have hprot : ((s.clip.setSlot f.slot { s.clip.slot f.slot with
        shocks := min ((s.clip.slot f.slot).shocks + 1) 65535 }).slot f.slot).prot = (s.clip.slot f.slot).prot := by
      rw [hslot]
      split <;> rfl
    rw [hclip] at hother hown hmore href htold
    rw [hprot, hcount] at hmore href htold
    have hsame (j : Nat) (hj : j ≠ f.slot) : (s.shockFilling time).clip.slot j = s.clip.slot j :=
      (hother j hj).trans ((hslot j).trans (if_neg fun k => hj k.1.symm))
    have hat (hi : f.slot < 64) : (s.shockFilling time).clip.slot f.slot = { s.clip.slot f.slot with
        shocks := min ((s.clip.slot f.slot).shocks + 1) 65535
        prot := if (s.clip.slot f.slot).prot = none ∧ s.clip.protectedCount < s.clip.cfg.protectLimit then some .shock
          else (s.clip.slot f.slot).prot } := by
      rw [hown hi, hcount, hprot, hslot, if_pos ⟨rfl, hi⟩]
      rfl
    refine ⟨?_, fun h => absurd (hf.symm.trans h) nofun, fun j hj => hsame j fun k => hj (by rw [hf, k]; rfl), fun j => ?_,
      fun g hg hi => ?_, fun hall => ?_, ?_, fun g hg ha hl => ?_, fun n hn h => ?_⟩
    · obtain ⟨slots, n, ns, h⟩ := honly
      exact ⟨slots, n, ns, h⟩
    · by_cases hj : j = f.slot
      · subst hj
        by_cases hi : f.slot < 64
        · rw [hat hi]
        · rw [ClipRecorder.slot_outside _ (Nat.not_lt.mp hi), ClipRecorder.slot_outside _ (Nat.not_lt.mp hi)]
      · rw [hsame j hj]
    · cases hf.symm.trans hg
      exact hat hi
    · exact (hmore (hall f hf)).trans (if_congr (and_congr_left' hasks.symm) rfl rfl)
    · exact href.trans (congrArg (s.clip.protectRefused + ·) (if_congr (and_congr_left' hasks.symm) rfl rfl))
    · cases hf.symm.trans hg
      exact htold (hasks.mp ha) hl
    · exact htells n hn h

/-- Step 2 with a newest CLOSED slot: its protection is asked for where it lies within the pre-event window. -/
theorem State.shockPrevious_eq (s : State) (time : Time) : s.shockPrevious time = match s.clip.previous with
    | none => s
    | some x => if (time - x.2.endTime.getD 0).toNat ≤ 1000000 * s.clip.cfg.preEventS ∨
        2 ^ 39 ≤ (time - x.2.endTime.getD 0).toNat then s.protectShock x.1 time else s := by
  unfold State.shockPrevious
  cases s.clip.previous with
  | none => rfl
  | some x =>
    refine if_congr ?_ rfl rfl
    unfold withinPreEvent validDiff
    by_cases h : (time - x.2.endTime.getD 0).toNat < 2 ^ 39
    · rw [if_pos h]
      simp only [decide_eq_true_eq]
      omega
    · rw [if_neg h]
      simp only [true_iff]
      exact .inr (Nat.not_lt.mp h)

/-- The shock hold of an event (R120). -/
theorem State.startShockHold_spec (s : State) (t : Time) :
    (s.clip.cfg.shockHoldMs = 0 ∨ atOrAfter s.now (later t (1000 * s.clip.cfg.shockHoldMs)) = true ∨
      (∃ old, s.card.shockHold = some old ∧ atOrAfter old (later t (1000 * s.clip.cfg.shockHoldMs)) = true) →
        s.startShockHold t = s) ∧
    (s.clip.cfg.shockHoldMs ≠ 0 → atOrAfter s.now (later t (1000 * s.clip.cfg.shockHoldMs)) = false →
      (∀ old, s.card.shockHold = some old → atOrAfter old (later t (1000 * s.clip.cfg.shockHoldMs)) = false) →
        s.startShockHold t = { s with
          card := { s.card with shockHold := some (later t (1000 * s.clip.cfg.shockHoldMs)) } }) := by
  unfold State.startShockHold
  simp only
  refine ⟨fun h => if_pos ?_, fun h1 h2 h3 => if_neg ?_⟩
  · rcases h with h | h | ⟨old, h, h'⟩
    · simp [h]
    · simp [h]
    · simp [h, h']
  · cases hs : s.card.shockHold with
    | none => simp [h1, h2]
    | some old => simp [h1, h2, h3 old hs]

end Sys2Proof.Machine
end


section
/-! SUPPORT. The settlement of READ_COMPLETE. -/
namespace Sys2Proof.Machine

theorem ShockDetector.judge_total (d : ShockDetector) (cfg : MotionCfg) (gap high : Bool) :
    ((d.afterGap gap).judge cfg high).total = d.total := by
  have h : (d.afterGap gap).total = d.total := by unfold afterGap; split <;> rfl
  rw [← h]
  unfold judge
  repeat' split
  all_goals rfl

/-- Step 2: what asking for the newest CLOSED slot's protection leaves. -/
theorem State.shockPrevious_kept (s : State) (time : Time) : (∃ slots n ns, s.shockPrevious time = { s with
      clip := { s.clip with slots := slots, protectRefused := n }, link := { s.link with notices := ns } }) ∧
    (∀ j, (s.clip.slot j).state ≠ .closed → (s.shockPrevious time).clip.slot j = s.clip.slot j) ∧
    ((∀ i, (s.clip.slot i).state ≠ .closed) → s.shockPrevious time = s) ∧
    ∀ n, n.kind ≠ (Notice.protectRefused 0 time).kind → s.Tells n → (s.shockPrevious time).Tells n := by
  rw [State.shockPrevious_eq]
  cases hp : s.clip.previous with
  | none => exact ⟨⟨_, _, _, rfl⟩, fun _ _ => rfl, fun _ => rfl, fun _ _ h => h⟩
  | some x =>
    obtain ⟨-, -, hx⟩ := ClipRecorder.previous_spec hp
    simp only
    split
    · obtain ⟨honly, hsame, -, -, -, -, htells, -⟩ := s.protectShock_asked x.1 time
      exact ⟨honly, fun j hj => hsame j fun k => hj (k ▸ hx), fun h => absurd hx (h x.1), fun n hn => htells n hn⟩
    · exact ⟨⟨_, _, _, rfl⟩, fun _ _ => rfl, fun _ => rfl, fun _ _ h => h⟩

/-- Step 2 with a CLOSED slot whose close sequence is above every other's. -/
theorem State.shockPrevious_newest {s : State} {i : Nat} (time : Time) (hi : i < 64) (hc : (s.clip.slot i).state = .closed)
    (hn : ∀ j, j ≠ i → (s.clip.slot j).state = .closed →
      ((s.clip.slot j).closeSeq.getD 0).toNat < ((s.clip.slot i).closeSeq.getD 0).toNat) :
    s.shockPrevious time = if (time - (s.clip.slot i).endTime.getD 0).toNat ≤ 1000000 * s.clip.cfg.preEventS ∨
        2 ^ 39 ≤ (time - (s.clip.slot i).endTime.getD 0).toNat then s.protectShock i time else s := by
  rw [State.shockPrevious_eq, ClipRecorder.previous_eq hi hc hn]

/-- Settles O15: the steps and marks of the sample, and the shock event's effects where the detector fires. -/
theorem readCompleteProcesses : Obligations.ReadCompleteProcesses := by
  intro s bytes a stamp htxn hstale x gap fires filled moved marked held own lens gains
  have hexec : exec (.readComplete bytes) s = .next (State.conclude (s.readDone.processSample x)) := by
    refine (exec_eq _ s).trans (congrArg _ ?_)
    show s.onReadComplete bytes = _
    unfold State.onReadComplete
    rw [htxn]
    exact if_neg (by simp [hstale])
  have hat (d : Fin 3) := Stepped.sample_at s.motion.lens.active held own gap.2
    { axes := s.motion.axes, marks := ⟨false, false, false⟩ } d
  have haxes : (s.motion.integrate x s.imu.cfg.period).axes = ⟨moved lens.yaw held.yaw own.yaw s.motion.axes.yaw,
      moved lens.pitch held.pitch own.pitch s.motion.axes.pitch,
      moved lens.roll held.roll own.roll s.motion.axes.roll⟩ := by
    have h0 := (hat 0).1
    have h1 := (hat 1).1
    have h2 := (hat 2).1
    show (⟨(s.motion.integrate x s.imu.cfg.period).axes.at 0, (s.motion.integrate x s.imu.cfg.period).axes.at 1,
      (s.motion.integrate x s.imu.cfg.period).axes.at 2⟩ : Tri Integrator) = _
    exact congr (congr (congrArg Tri.mk h0) h1) h2
  let m := s.motion.sampleMarks x s.imu.cfg
  have hgains (f : FrameFlags) : gains f { f.mark m with shock := f.shock || fires } :=
    ⟨m.margin.yaw, m.margin.pitch, m.margin.roll, (hat 0).2.trans (or_iff_right nofun),
      (hat 1).2.trans (or_iff_right nofun), (hat 2).2.trans (or_iff_right nofun), rfl⟩
  obtain ⟨g, hg, hgonly, hgrec, hgnone⟩ := s.frame.marked_spec m fires
  let motion : MotionComputer := { s.motion with
    axes := ⟨moved lens.yaw held.yaw own.yaw s.motion.axes.yaw,
      moved lens.pitch held.pitch own.pitch s.motion.axes.pitch,
      moved lens.roll held.roll own.roll s.motion.axes.roll⟩
    gap := { lastGood := some stamp, lastRates := own,
             count := if gap.1 then s.motion.gap.count + 1 else s.motion.gap.count }
    shock := { (s.motion.shock.afterGap gap.1).judge s.imu.cfg (x.high s.imu.cfg) with
      total := if fires then s.motion.shock.total + 1 else s.motion.shock.total }
    lastTemp := x.temp }
  have hafter : s.motion.afterSample x s.imu.cfg = { motion with
      shock := (s.motion.shock.afterGap gap.1).judge s.imu.cfg (x.high s.imu.cfg) } := by
    unfold MotionComputer.afterSample
    rw [haxes]
    rfl
  have htotal := s.motion.shock.judge_total s.imu.cfg gap.1 (x.high s.imu.cfg)
  have records (u : State) (hu : u.frame = g) : 
      (∀ r, s.frame.record = some r → u.frame.lateFlags = s.frame.lateFlags ∧
        u.frame.lateShocks = s.frame.lateShocks ∧ ∃ r', u.frame.record = some r' ∧ gains r.flags r'.flags ∧
        r' = { r with flags := r'.flags, shocks := if fires then min (r.shocks + 1) 255 else r.shocks }) ∧
      (s.frame.record = none → u.frame.record = none ∧
        (s.frame.inFrame = true → gains s.frame.lateFlags u.frame.lateFlags ∧
          u.frame.lateShocks = if fires then min (s.frame.lateShocks + 1) 255 else s.frame.lateShocks) ∧
        (s.frame.inFrame = false → u.frame.lateFlags = s.frame.lateFlags ∧ u.frame.lateShocks = s.frame.lateShocks)) := by
    rw [hu]
    refine ⟨fun r hr => ?_, fun hr => ?_⟩
    · obtain ⟨h1, h2, h3⟩ := hgrec r hr
      exact ⟨h1, h2, _, h3, hgains r.flags, rfl⟩
    · obtain ⟨h1, h2, h3⟩ := hgnone hr
      refine ⟨h1, fun hin => ?_, h3⟩
      obtain ⟨k1, k2⟩ := h2 hin
      exact ⟨k1 ▸ hgains _, k2⟩
  have hproc : s.readDone.processSample x =
      if fires then State.shockEvent { s.readDone with motion := s.motion.afterSample x s.imu.cfg, frame := s.frame.mark m }
        stamp
      else { s.readDone with motion := s.motion.afterSample x s.imu.cfg, frame := s.frame.mark m } := rfl
  refine ⟨_, hexec, ?_⟩
  clear_value fires
  cases fires
  · have hu : s.readDone.processSample x = { s with
        imu := { s.imu with state := .idle, txn := none }, motion := motion, frame := g } := by
      rw [hproc, hafter, hg]
      exact congrArg (fun n => ({ s with
        imu := { s.imu with state := .idle, txn := none }, frame := s.frame.mark m
        motion := { motion with
          shock := { (s.motion.shock.afterGap gap.1).judge s.imu.cfg (x.high s.imu.cfg) with total := n } } } : State)) htotal
    rw [hu]
    refine ⟨?_, (records _ rfl).1, (records _ rfl).2, fun _ => ⟨rfl, rfl, rfl⟩, nofun⟩
    exact congrArg (fun fr => ({ s with
      imu := { s.imu with state := .idle, txn := none }, motion := motion, frame := fr } : State)) hgonly
  · let v0 : State := State.raise { s with imu := { s.imu with state := .idle, txn := none }, motion := motion, frame := g }
      (.shock stamp (s.motion.shock.total + 1))
    have hu : s.readDone.processSample x = ((v0.shockFilling stamp).shockPrevious stamp).startShockHold stamp := by
      unfold v0
      rw [hproc, hafter, hg]
      unfold State.shockEvent
      dsimp only
      rw [htotal]
      rfl
    rw [hu]
    have h1 := v0.shockFilling_step1 stamp
    generalize v0.shockFilling stamp = v1 at *
    obtain ⟨h2only, h2same, h2none, h2tells⟩ := v1.shockPrevious_kept stamp
    have h2newest {i : Nat} := State.shockPrevious_newest (s := v1) (i := i) stamp
    obtain ⟨hhold1, hhold2⟩ := (v1.shockPrevious stamp).startShockHold_spec stamp
    obtain ⟨d, hd⟩ := (v1.shockPrevious stamp).startShockHold_eq stamp
    generalize v1.shockPrevious stamp = v2 at *
    generalize v2.startShockHold stamp = u at *
    obtain ⟨slots1, n1, ns1, e1⟩ := h1.only
    obtain ⟨slots2, n2, ns2, e2⟩ := h2only
    have hu' : u = { s with
        imu := { s.imu with state := .idle, txn := none }, motion := motion, frame := g
        clip := { s.clip with slots := slots2, protectRefused := n2 }, card := { s.card with shockHold := d }
        link := { s.link with notices := ns2 } } := by rw [hd, e2, e1]; rfl
    have hclip : u.clip = v2.clip := by rw [hd]
    have hlink : u.link = v2.link := by rw [hd]
    have hcfg1 : v1.clip.cfg = s.clip.cfg := by rw [e1]; rfl
    have hcfg2 : v2.clip.cfg = s.clip.cfg := by rw [e2]; exact hcfg1
    have hnow2 : v2.now = s.now := by rw [e2, e1]; rfl
    have hcard2 : v2.card = s.card := by rw [e2, e1]; rfl
    rw [hcfg2, hnow2, hcard2] at hhold1 hhold2
    have hfilling1 (j : Nat) (hj : (s.clip.slot j).state = .closed) (hall : ∀ f, s.clip.filling = some f →
        f.slot < 64 ∧ (s.clip.slot f.slot).state = .filling) : v1.clip.slot j = s.clip.slot j := by
      refine h1.same j fun k => ?_
      obtain ⟨f, hf, rfl⟩ := Option.map_eq_some_iff.mp k
      rw [(hall f hf).2] at hj
      cases hj
    refine ⟨?_, (records u (by rw [hu'])).1, (records u (by rw [hu'])).2, nofun, fun _ => ⟨?_, ?_, ?_⟩⟩
    · rw [hu']
      exact congrArg (fun fr => ({ s with
        imu := { s.imu with state := .idle, txn := none }, motion := motion, frame := fr
        clip := { s.clip with slots := slots2, protectRefused := n2 }, card := { s.card with shockHold := d }
        link := { s.link with notices := ns2 } } : State)) hgonly
    · rw [hlink]
      exact h2tells _ nofun (h1.tells _ nofun (State.tells_raise _ _))
    · intro hold
      refine ⟨fun h => ?_, fun k1 k2 k3 => ?_⟩
      · rw [hhold1 h, hcard2]
      · rw [hhold2 k1 k2 k3]
    · intro limit count refused asks now
      rw [hclip]
      refine ⟨fun f hf hi hs => ?_, ?_, fun hno => ⟨fun f hf hi hs => ⟨fun ha hl => ?_, fun h => ?_⟩, fun hf => ?_⟩,
        fun j hj hne => ?_⟩
      · refine (h2same f.slot ?_).trans (h1.slot f hf hi)
        rw [h1.state]
        exact fun k => nomatch hs.symm.trans k
      · intro i hi hc hn hall elapsed asksToo
        have hsame := hfilling1 i hc hall
        have hclosed (j : Nat) (hj : (v1.clip.slot j).state = .closed) : (s.clip.slot j).state = .closed :=
          (h1.state j).symm.trans hj
        have hstep := h2newest hi ((h1.state i).trans hc) fun j hne hj => by
          rw [hsame, hfilling1 j (hclosed j hj) hall]
          exact hn j hne (hclosed j hj)
        rw [hsame, hcfg1] at hstep
        have hcount : v1.clip.protectedCount = now := h1.count fun f hf => (hall f hf).1
        have href1 : v1.clip.protectRefused = s.clip.protectRefused + (if asks = true ∧ limit ≤ count then 1 else 0) :=
          h1.refused
        by_cases hw : elapsed ≤ 1000000 * s.clip.cfg.preEventS ∨ 2 ^ 39 ≤ elapsed
        · have hasks : asksToo ↔ (s.clip.slot i).prot = none := and_iff_right hw
          have hstep := hstep.trans (if_pos hw)
          obtain ⟨-, kother, kslot, -, kref, ktold, -, kstill⟩ := v1.protectShock_asked i stamp
          rw [← hstep] at kother kslot kref ktold kstill
          have kslot := kslot hi
          rw [hsame, hcount, hcfg1] at kslot kref ktold
          rw [hsame] at kstill
          refine ⟨kslot.trans ?_, kref.trans ?_, fun h1' h2' => ?_, fun f _ ha hl hnot => ?_, fun j hne hj => ?_⟩
          · have : (if (s.clip.slot i).prot = none ∧ now < s.clip.cfg.protectLimit then some Protection.shock
                else (s.clip.slot i).prot) = if asksToo ∧ now < limit then some .shock else (s.clip.slot i).prot :=
              if_congr (and_congr_left' hasks.symm) rfl rfl
            rw [this]
          · rw [href1]
            exact congrArg (_ + ·) (if_congr (and_congr_left' hasks.symm) rfl rfl)
          · show ∃ e ∈ u.link.notices, e.notice = .protectRefused i stamp
            rw [hlink]
            exact ktold (hasks.mp h1') h2'
          · show ∃ e ∈ u.link.notices, e.notice = .protectRefused f.slot stamp
            rw [hlink, kstill fun k => hnot (hasks.mpr k)]
            exact h1.told f ‹_› ha hl
          · exact (kother j hne).trans (hfilling1 j hj hall)
        · have hasks : ¬asksToo := fun k => hw k.1
          have hv : v2 = v1 := hstep.trans (if_neg hw)
          rw [hv]
          refine ⟨?_, ?_, fun k => absurd k hasks, fun f hf ha hl _ => ?_, fun j _ hj => hfilling1 j hj hall⟩
          · rw [hsame, if_neg fun k => hasks k.1]
          · rw [href1, show (if asksToo ∧ limit ≤ now then (1 : Word32) else 0) = 0 from if_neg fun k => hasks k.1]
            exact (BitVec.add_zero _).symm
          · show ∃ e ∈ u.link.notices, e.notice = .protectRefused f.slot stamp
            rw [hlink, hv]
            exact h1.told f hf ha hl
      · have hv : v2 = v1 := h2none fun i => by rw [h1.state]; exact hno i
        refine ⟨?_, ?_⟩
        · rw [hv]
          exact h1.refused.trans (congrArg (s.clip.protectRefused + ·) (if_pos ⟨ha, hl⟩))
        · show ∃ e ∈ u.link.notices, e.notice = .protectRefused f.slot stamp
          rw [hlink, hv]
          exact h1.told f hf ha hl
      · have hv : v2 = v1 := h2none fun i => by rw [h1.state]; exact hno i
        rw [hv]
        refine h1.refused.trans ((congrArg (s.clip.protectRefused + ·) (if_neg ?_)).trans (BitVec.add_zero _))
        rintro ⟨k1, k2⟩
        rcases h with h | h
        · exact absurd (h.symm.trans k1) nofun
        · exact absurd h (not_lt.mpr k2)
      · have hv : v2 = v1 := h2none fun i => by rw [h1.state]; exact hno i
        rw [hv, h1.idle hf]
        rfl
      · refine (h2same j ?_).trans (h1.same j hne)
        rw [h1.state]
        exact hj

end Sys2Proof.Machine
end


section
/-! SUPPORT. The end of an event: what it leaves, and the pieces of the clip recorder's standing work written out. -/
namespace Sys2Proof.Machine

variable {s : State} {f : Filling}

/-! ### What the end of an event leaves -/

/-- The standing work changes the clip column, the accumulator and the notices, and nothing else. -/
theorem State.settleClip_frame (s : State) : s.settleClip = { s with
    frame := { s.frame with accOpen := s.settleClip.frame.accOpen, acc := s.settleClip.frame.acc }
    buffer := s.settleClip.buffer
    clip := { s.settleClip.clip with
      cfg := s.clip.cfg, window := s.clip.window, protectRefused := s.clip.protectRefused }
    link := { s.link with notices := s.settleClip.link.notices } } := by
  have h := beyondClip_settleClip s
  generalize s.settleClip = u at h ⊢
  obtain ⟨_, _, _, frame, _, clip, _, _, _, link, _, _, _⟩ := u
  obtain ⟨_, _, _, frame', _, clip', _, _, _, link', _, _, _⟩ := s
  cases frame; cases clip; cases link; cases frame'; cases clip'; cases link'
  simp only [State.beyondClip, FrameBuilder.closeAcc, State.mk.injEq, FrameBuilder.mk.injEq, ClipRecorder.mk.injEq,
    Link.mk.injEq] at h ⊢
  tauto

/-- The end of an event after its standing work: HOLD and the latency deadline, the grant, and what the arbiter
sends. -/
theorem State.conclude_eq (s : State) : ∃ g send out ns packet, s.conclude = { s.settleClip with
    buffer := s.settleClip.syncBuffer.buffer
    budget := { s.settleClip.budget with grant := g }
    frame := { s.settleClip.frame with sendList := send }
    link := { s.settleClip.link with outstanding := out, notices := ns, sending := packet } } := by
  obtain ⟨send, out, ns, packet, h⟩ := arbitrate_frame s.settle
  obtain ⟨g, hg, -⟩ := syncGrant_eq s.settleClip.syncBuffer
  refine ⟨g, send, out, ns, packet, ?_⟩
  unfold State.conclude
  rw [h]
  unfold State.settle
  rw [hg]
  rfl

/-- What an event's end leaves as it was. -/
theorem State.conclude_frame (s : State) : s.conclude = { s with
    frame := { s.frame with
      sendList := s.conclude.frame.sendList, accOpen := s.conclude.frame.accOpen, acc := s.conclude.frame.acc }
    buffer := s.conclude.buffer
    clip := { s.conclude.clip with
      cfg := s.clip.cfg, window := s.clip.window, protectRefused := s.clip.protectRefused }
    budget := { s.budget with grant := s.conclude.budget.grant }
    link := { s.link with
      outstanding := s.conclude.link.outstanding, notices := s.conclude.link.notices
      sending := s.conclude.link.sending } } := by
  obtain ⟨g, send, out, ns, packet, h⟩ := s.conclude_eq
  have hframe := s.settleClip_frame
  generalize s.settleClip = u at h hframe
  rw [h, hframe]

/-- The buffer's shortage of room in words (R68). -/
theorem ChunkBuffer.short_iff (b : ChunkBuffer) :
    b.short = true ↔ b.free.length < 18 ∨ 256 - b.queue.length < 2 := by
  simp [ChunkBuffer.short, ChunkBuffer.freeDescriptors]

theorem State.conclude_hold_iff (s : State) : s.conclude.buffer.hold = true ↔
    s.conclude.buffer.free.length < 18 ∨ 256 - s.conclude.buffer.queue.length < 2 := by
  rw [s.conclude_hold, ChunkBuffer.short_iff]

/-- The latency deadline follows the earliest arrival (R75). -/
theorem ChunkBuffer.syncLatency_latDeadline (b : ChunkBuffer) (now : Time) (ms : Nat) :
    (b.syncLatency now ms).latDeadline = (earliestArrival b.queue).map fun a => later a (1000 * ms) := by
  unfold ChunkBuffer.syncLatency
  dsimp only
  split
  · rename_i h; exact h.symm
  · rfl

theorem State.settleClip_cfg (s : State) : s.settleClip.clip.cfg = s.clip.cfg :=
  eq_of_beyondClip (fun u => u.clip.cfg) (beyondClip_settleClip s) fun _ => rfl

theorem State.conclude_latDeadline (s : State) : s.conclude.buffer.latDeadline =
    (earliestArrival s.conclude.buffer.queue).map fun a => later a (1000 * s.clip.cfg.latencyMs) := by
  obtain ⟨g, send, out, ns, packet, h⟩ := s.conclude_eq
  have hdeadline :=
    s.settleClip.buffer.syncHold.syncLatency_latDeadline s.settleClip.now s.settleClip.clip.cfg.latencyMs
  rw [h]
  show (s.settleClip.buffer.syncHold.syncLatency _ _).latDeadline =
    (earliestArrival (ChunkBuffer.syncLatency _ _ _).queue).map _
  rw [hdeadline, ChunkBuffer.syncLatency_queue, State.settleClip_cfg]

/-- The conditions of a grant request (R106). -/
theorem State.wantsGrant_iff (u : State) : u.wantsGrant = true ↔
    (u.card.state = .ready ∨ u.card.state = .sleep) ∧ u.card.bus = none ∧
    u.buffer.runDue u.clip.cfg.batchKiB = true ∧ u.card.shockHold = none ∧
    ∃ f, u.clip.filling = some f ∧ 1 ≤ f.placement / 512 - f.front := by
  unfold State.wantsGrant State.runDue Filling.writable
  simp only [Bool.and_eq_true, Bool.or_eq_true, decide_eq_true_eq, Option.isNone_iff_eq_none, Option.any_eq_true,
    and_assoc]

/-- A grant not held is asked for exactly while the conditions of a request hold (R106, R149). -/
theorem State.syncGrant_pending {u : State} (h : u.budget.grant ≠ .held) :
    u.syncGrant.budget.grant ≠ .held ∧ (u.syncGrant.budget.grant = .pending ↔ u.wantsGrant = true) := by
  unfold State.syncGrant
  split <;> rename_i hg
  · split <;> simp [State.setGrant, *]
  · split <;> simp [State.setGrant, *]
  · exact absurd hg h

theorem State.conclude_grant (s : State) : (s.budget.grant = .held → s.conclude.budget.grant = .held) ∧
    (s.budget.grant ≠ .held → s.conclude.budget.grant ≠ .held ∧ (s.conclude.budget.grant = .pending ↔
      (s.card.state = .ready ∨ s.card.state = .sleep) ∧ s.card.bus = none ∧
      s.conclude.buffer.runDue s.clip.cfg.batchKiB = true ∧ s.card.shockHold = none ∧
      ∃ f, s.conclude.clip.filling = some f ∧ 1 ≤ f.placement / 512 - f.front)) := by
  obtain ⟨-, -, -, -, -, -, -, -, ⟨g, hbudget, hg⟩, hbuffer, hclip⟩ := conclude_spec s
  refine ⟨fun h => by rw [hbudget]; exact hg.mp h, fun h => ?_⟩
  have hsame : s.settleClip.syncBuffer.budget = s.budget :=
    eq_of_beyondClip State.budget (beyondClip_settleClip s) fun _ => rfl
  have hcard : s.settleClip.syncBuffer.card = s.card := s.settleClip_card
  have hcfg : s.settleClip.syncBuffer.clip.cfg = s.clip.cfg := s.settleClip_cfg
  obtain ⟨g', hsync, -⟩ := syncGrant_eq s.settleClip.syncBuffer
  change s.settle = _ at hsync
  have hgrant : s.conclude.budget.grant = s.settleClip.syncBuffer.syncGrant.budget.grant := by
    simp [State.conclude, State.settle]
  have hbuf : s.settle.buffer = s.settleClip.syncBuffer.buffer := (congrArg State.buffer hsync).trans rfl
  have hclip' : s.settle.clip = s.settleClip.syncBuffer.clip := (congrArg State.clip hsync).trans rfl
  have hnot := State.syncGrant_pending (u := s.settleClip.syncBuffer) (by rwa [hsame])
  rwa [State.wantsGrant_iff, hcard, hcfg, ← hbuf, ← hclip', ← hbuffer, ← hclip, ← hgrant] at hnot

/-- With no standing work left the clip column stays, but for HOLD and the latency deadline. -/
theorem State.conclude_settled (h : s.settleClip = s) : s.conclude.clip = s.clip ∧
    s.conclude.frame = { s.frame with sendList := s.conclude.frame.sendList } ∧
    s.conclude.buffer = { s.buffer with
      hold := s.conclude.buffer.hold, latDeadline := s.conclude.buffer.latDeadline
      latExpired := s.conclude.buffer.latExpired } := by
  obtain ⟨g, send, out, ns, packet, hc⟩ := s.conclude_eq
  obtain ⟨-, hold, d, e, hb⟩ := s.conclude_buffer
  rw [h] at hc hb
  refine ⟨by rw [hc], by rw [hc], by rw [hb]⟩

/-! ### Whether there is standing work (R92, R94, R99, R100) -/

/-- A close pending with nothing placed in the queue: the segment has drained. -/
theorem State.drained_of_pending {cause : CloseCause} (hf : s.clip.filling = some f) (hp : f.pending = some cause)
    (hi : s.clip.state ≠ .idle) (he : s.clip.state ≠ .emergency) (hq : ∀ c ∈ s.buffer.queue, c.place = none) :
    s.drained = some (f, cause) := by
  have hany : s.buffer.queue.any (fun c => c.place.isSome) = false := by
    rw [List.any_eq_false]
    intro c hc
    simp [hq c hc]
  unfold State.drained
  simp [hf, hp, hi, he, hany]

theorem State.drained_emergency (he : s.clip.state = .emergency) : s.drained = none := by
  cases hd : s.drained with
  | none => rfl
  | some x =>
    unfold State.drained at hd
    simp only [he] at hd
    split at hd
    · cases hd
    · split at hd <;> simp at hd

/-- The first chunk with no placement, not RECEIVING, is the next to be placed. -/
theorem State.nextPlacement_of_first {q rest : List Chunk} {c : Chunk} (hf : s.clip.filling = some f)
    (hp : f.pending = none) (hi : s.clip.state ≠ .idle) (hq : s.buffer.queue = q ++ c :: rest)
    (hd : ∀ d ∈ q, d.place ≠ none) (hc : c.place = none) (hr : c.state ≠ .receiving) :
    s.nextPlacement = some (f, c) := by
  have hfind : s.buffer.queue.find? (fun c => c.place.isNone) = some c := by
    rw [hq, List.find?_append, List.find?_eq_none.mpr (by simpa using hd)]
    simp [hc]
  unfold State.nextPlacement
  rw [hf, hfind]
  exact if_pos (by simp [ClipState.isOpen_iff, hp, hr, hi])

/-- Where no chunk can be placed, no segment has drained and no close is at its end, nothing is done. -/
theorem State.settleClip_nothing
    (hd : ∀ f, s.clip.filling = some f → f.pending ≠ none →
      s.clip.state = .emergency ∨ ∃ c ∈ s.buffer.queue, c.place ≠ none)
    (hn : ∀ f q c rest, s.clip.filling = some f → f.pending = none → s.buffer.queue = q ++ c :: rest →
      (∀ d ∈ q, d.place ≠ none) → c.place = none → c.state = .receiving)
    (he : s.buffer.queue = [] → s.clip.state ≠ .closing ∧ s.clip.state ≠ .emergency) : s.settleClip = s := by
  have hdrained : s.drained = none := by
    cases h : s.drained with
    | none => rfl
    | some x =>
      obtain ⟨f, cause⟩ := x
      obtain ⟨hf, hp, hs⟩ := State.drained_spec h
      rcases hd f hf (by simp [hp]) with hem | ⟨c, hc, hplace⟩
      · exact absurd h (by simp [State.drained_emergency hem])
      · simp only [ChunkBuffer.standing, List.any_eq_false] at hs
        exact absurd (Option.isSome_iff_ne_none.mpr hplace) (hs c hc)
  have hnext : s.nextPlacement = none := by
    cases h : s.nextPlacement with
    | none => rfl
    | some x =>
      obtain ⟨f, c⟩ := x
      obtain ⟨hf, hp, -, hr, hfind⟩ := State.nextPlacement_spec h
      obtain ⟨hnone, q, rest, hq, hplaced⟩ := List.find?_eq_some_iff_append.mp hfind
      refine absurd (hn f q c rest hf hp hq (fun d hd => ?_) (by simpa using hnone)) hr
      exact Option.isSome_iff_ne_none.mp (by simpa using hplaced d hd)
  rw [State.settleClip_done hdrained hnext]
  unfold State.finishClose
  split
  · rename_i hq
    obtain ⟨h1, h2⟩ := he (List.isEmpty_iff.mp hq)
    split
    · rename_i h; exact absurd h h1
    · rename_i h; exact absurd h h2
    · rfl
  · rfl

end Sys2Proof.Machine
end


section
/-! SUPPORT. The pieces of the clip recorder's standing work, written out: a drained segment's close, the slot that the
clip goes on in, the judgement of the next chunk, and a clip's end (R91–R95, R99, R100). -/
namespace Sys2Proof.Machine

variable {s : State} {f : Filling}

/-! ### The slot the clip goes on in (R91, R94) -/

/-- The clip goes on in slot i, as the slot stood and with the blocks it gave in state `s`. -/
def State.goOnIn (s w : State) (i : Nat) : State :=
  { w with clip := { w.clip with
    state := if w.clip.state = .closing then .closing else .recording
    filling := some { slot := i, placement := 0, front := 0, pending := none, anyPlaced := false, limit := 0,
                      contrib := s.contributions i, fillers := [], damagedAt := none }
    slots := w.clip.slots.setIfInBounds i { s.clip.slot i with
      state := .filling, clip := some s.clip.clipNumber, startTime := some s.now, firstSeq := none, lastSeq := none
      endTime := none, closeSeq := none, endReason := none, streamLen := 0, skips := [], shocks := 0 } } }

theorem ClipState.resumed_eq (c : ClipState) : c.resumed = if c = .closing then .closing else .recording := by
  cases c <;> rfl

/-- Two states that differ in the clip column alone give a slot the same blocks where the slot is the same. -/
theorem State.contributions_congr {u v : State} {i : Nat} (h : u.beyondClip = v.beyondClip)
    (hs : u.clip.slot i = v.clip.slot i) : u.contributions i = v.contributions i := by
  have hc : u.contribution = v.contribution := eq_of_beyondClip State.contribution h fun _ => rfl
  unfold State.contributions
  rw [hs, hc]

/-- A slot found is taken as it stood before the search and the close (R91, R94). -/
theorem State.takeSlot_goOnIn {w : State} {i : Nat} (h : w.beyondClip = s.beyondClip)
    (hn : w.clip.clipNumber = s.clip.clipNumber) (hs : w.clip.slot i = s.clip.slot i) :
    (w.takeSlot i).setClipState w.clip.state.resumed = s.goOnIn w i := by
  have hnow : w.now = s.now := eq_of_beyondClip State.now h fun _ => rfl
  unfold State.takeSlot State.newFilling State.goOnIn
  rw [State.contributions_congr h hs, hn, hs, hnow, ClipState.resumed_eq]
  rfl

/-- A slot other than the one replaced. -/
theorem ClipRecorder.slot_setSlot_ne (c : ClipRecorder) {i k : Nat} (h : i ≠ k) (x : Slot) :
    (c.setSlot k x).slot i = c.slot i := by
  rw [c.setSlot_slot, if_neg fun e => h e.1.symm]

theorem ClipRecorder.Chosen.ne {c : ClipRecorder} {mode : ClipMode} {i k : Nat} (h : c.Chosen mode (some k) i) :
    i ≠ k := fun e => h.2.1 (congrArg some e)

/-! ### The close of a drained segment (R94, R95) -/

/-- The FILLING segment closes with a reason. -/
theorem State.closeSegment_eq (hf : s.clip.filling = some f) (reason : EndReason) : s.closeSegment reason =
    State.raise { s with clip := { s.clip with
      closeCounter := s.clip.closeCounter + 1, filling := none
      slots := s.clip.slots.setIfInBounds f.slot { s.clip.slot f.slot with
        state := .closed, endTime := some s.now, closeSeq := some (s.clip.closeCounter + 1)
        streamLen := if reason = .damaged then f.damagedAt.getD f.placement else f.placement
        endReason := some reason } } } (.segmentClosed f.slot reason (s.clip.closeCounter + 1)) := by
  unfold State.closeSegment
  rw [hf]
  rfl

/-- Closing a segment leaves every slot but its own. -/
theorem State.closeSegment_slot (hf : s.clip.filling = some f) (reason : EndReason) {i : Nat} (h : i ≠ f.slot) :
    (s.closeSegment reason).clip.slot i = s.clip.slot i := by
  rw [State.closeSegment_eq hf]
  exact s.clip.slot_setSlot_ne h _

theorem CloseCause.reason_none (cause : CloseCause) :
    cause.reason false = if cause = .damaged then .damaged else .ringFull := by
  cases cause <;> rfl

/-- A drained segment whose search tries a slot with no usable block: the work goes on with that slot UNUSABLE. -/
theorem State.settleClip_closes_unusable {cause : CloseCause} {i : Nat} (hd : s.drained = some (f, cause))
    (hi : s.clip.candidate s.clip.mode (some f.slot) = some i) (hz : (s.contributions i).sum = 0) :
    s.settleClip = (s.markUnusable i).settleClip := by
  have hd' : (s.markUnusable i).drained = some (f, cause) := hd
  have hsame : s.finishRollover f cause = (s.markUnusable i).finishRollover f cause := by
    have hseek := s.seekSlot_unusable hi hz
    unfold State.finishRollover
    rw [hseek]
    rfl
  rw [State.settleClip_finish hd, hsame, State.settleClip_finish hd']

/-- A drained segment closes, and the clip goes on in the slot found. -/
theorem State.settleClip_closes_found {cause : CloseCause} {i : Nat} (hd : s.drained = some (f, cause))
    (hi : s.clip.candidate s.clip.mode (some f.slot) = some i) (hne : i ≠ f.slot)
    (hz : (s.contributions i).sum ≠ 0) :
    s.settleClip = (s.goOnIn (s.closeSegment (cause.reason true)) i).settleClip := by
  obtain ⟨hf, -, -⟩ := State.drained_spec hd
  have hstate : (s.closeSegment (cause.reason true)).clip.state = s.clip.state := by
    rw [State.closeSegment_eq hf]; rfl
  have hnum : (s.closeSegment (cause.reason true)).clip.clipNumber = s.clip.clipNumber := by
    rw [State.closeSegment_eq hf]; rfl
  have hfinish : s.finishRollover f cause = s.goOnIn (s.closeSegment (cause.reason true)) i := by
    unfold State.finishRollover
    rw [s.seekSlot_found hi hz,
      ← State.takeSlot_goOnIn (beyondClip_closeSegment s _) hnum (State.closeSegment_slot hf _ hne), hstate]
  rw [State.settleClip_finish hd, hfinish]

/-- A drained segment closes RING_FULL, or DAMAGED as it was, where no slot is left, and the clip ends. -/
theorem State.settleClip_closes_none {cause : CloseCause} (hd : s.drained = some (f, cause))
    (hi : s.clip.candidate s.clip.mode (some f.slot) = none) :
    s.settleClip = ((s.closeSegment (cause.reason false)).abandonClip .ringFull).settleClip := by
  have hfinish : s.finishRollover f cause = (s.closeSegment (cause.reason false)).abandonClip .ringFull := by
    unfold State.finishRollover
    rw [s.seekSlot_none hi]
  rw [State.settleClip_finish hd, hfinish]

/-- A clip that ends with chunks queued, field by field (R94). -/
theorem State.abandonClip_eq (w : State) (reason : ClipEnd) : w.abandonClip reason = State.raise { w with
    buffer := { w.buffer with
      queue := [], flush := none, free := w.buffer.free ++ w.buffer.queue.flatMap Chunk.pages
      discarded := w.buffer.discarded + BitVec.ofNat 32 w.buffer.queue.length }
    frame := { w.frame with accOpen := false, acc := [] }
    clip := { w.clip with state := .idle, filling := none } } (.clipEnded w.clip.clipNumber reason) := by
  unfold State.abandonClip
  rw [ChunkBuffer.discardAll_eq]
  rfl

/-! ### The end of a close with nothing left to write (R99, R100) -/

/-- In EMERGENCY an empty queue ends the clip. -/
theorem State.settleClip_emergencyEnd (hf : s.clip.filling = some f) (hq : s.buffer.queue = [])
    (hc : s.clip.state = .emergency) : s.settleClip =
    (s.closeSegment (if f.pending = some .damaged then .damaged else .emergency)).endClip .emergency := by
  rw [State.settleClip_done (State.drained_emergency hc) (State.nextPlacement_of_empty hq)]
  unfold State.finishClose
  rw [hq, hc]
  simp [hf]

/-! ### A chunk placed (R77, R92, R93) -/

/-- One descriptor of the queue changed, where no other has its sequence number. -/
theorem map_seq_once {q rest : List Chunk} {c : Chunk} (g : Chunk → Chunk)
    (hs : ∀ d ∈ q ++ rest, d.seq ≠ c.seq) :
    (q ++ c :: rest).map (fun d => if d.seq = c.seq then g d else d) = q ++ g c :: rest := by
  have hother : ∀ l : List Chunk, (∀ d ∈ l, d.seq ≠ c.seq) →
      l.map (fun d => if d.seq = c.seq then g d else d) = l := by
    intro l hl
    refine (List.map_congr_left fun d hd => if_neg (hl d hd)).trans (List.map_id' l)
  rw [List.map_append, List.map_cons, if_pos rfl, hother q fun d hd => hs d (List.mem_append_left _ hd),
    hother rest fun d hd => hs d (List.mem_append_right _ hd)]

/-- The stream after a chunk, ended there where the chunk is the flush mark (R77). -/
theorem Filling.endStream_marked (g : Filling) (mark : Prop) [Decidable mark] : (if mark then g.endStream else g) =
    { g with
      placement := if mark then (g.placement + 511) / 512 * 512 else g.placement
      fillers := if mark ∧ g.placement % 512 ≠ 0 then g.fillers ++ [g.placement] else g.fillers } := by
  by_cases hm : mark
  · rw [if_pos hm, if_pos hm, Filling.endStream_eq]
    by_cases hz : g.placement % 512 = 0
    · rw [if_pos hz, if_neg fun h => h.2 hz]
    · rw [if_neg hz, if_pos ⟨hm, hz⟩]
  · rw [if_neg hm, if_neg hm, if_neg fun h => hm h.1]

/-- A chunk placed at the placement position, the filler after it where it is the flush mark. -/
theorem State.placeChunk_eq {w : State} {q rest : List Chunk} {c : Chunk} (hq : w.buffer.queue = q ++ c :: rest)
    (hs : ∀ d ∈ q ++ rest, d.seq ≠ c.seq) : w.placeChunk f c = { w with
      buffer := { w.buffer with
        queue := q ++ { c with state := .placed, place := some f.placement, acked := 0 } :: rest }
      clip := { w.clip with
        filling := some { f with
          placement := if w.buffer.flush = some c.seq then (f.placement + (16 + c.length) + 511) / 512 * 512
            else f.placement + (16 + c.length)
          fillers := if w.buffer.flush = some c.seq ∧ (f.placement + (16 + c.length)) % 512 ≠ 0 then
              f.fillers ++ [f.placement + (16 + c.length)] else f.fillers
          anyPlaced := true }
        slots := if f.anyPlaced then w.clip.slots else w.clip.slots.setIfInBounds f.slot
          { w.clip.slot f.slot with firstSeq := some c.seq } } } := by
  have hmap := map_seq_once (fun d => { d with state := .placed, place := some f.placement, acked := 0 }) hs
  have hslots : (if f.anyPlaced then w
      else w.setSlot f.slot { w.clip.slot f.slot with firstSeq := some c.seq }) = { w with clip := { w.clip with
        slots := if f.anyPlaced then w.clip.slots else w.clip.slots.setIfInBounds f.slot
          { w.clip.slot f.slot with firstSeq := some c.seq } } } := by
    split <;> rfl
  refine (congrArg₂ (fun (u : State) (g : Filling) => State.setFilling { u with buffer := u.buffer.mapQueue fun d =>
    if d.seq = c.seq then { d with state := .placed, place := some f.placement, acked := 0 } else d } g) hslots
    (Filling.endStream_marked { f with placement := f.placement + c.streamBytes, anyPlaced := true }
      (w.buffer.flush = some c.seq))).trans ?_
  unfold ChunkBuffer.mapQueue
  dsimp only
  rw [hq, hmap]
  rfl

end Sys2Proof.Machine
end


section
/-! SUPPORT. The judgement of the next chunk and its outcomes (R93, R94, R100), and the end of an event settled. -/
namespace Sys2Proof.Machine

variable {s : State} {f : Filling}

/-! ### A rollover begun (R94) -/

/-- The flush mark that a rollover leaves: the later of the pending mark and the last chunk placed (R76, R94). -/
def ChunkBuffer.rolloverMark (b : ChunkBuffer) : Option Word32 :=
  match (b.queue.filter (fun d => d.place.isSome)).getLast? with
  | none => b.flush
  | some d => some (match b.flush with
    | none => d.seq
    | some m => if m ∈ (b.queue.takeWhile (fun e => decide (e.seq ≠ d.seq))).map Chunk.seq then d.seq else m)

/-- A flush requested with the last chunk placed, of a stream that ends at a block boundary. -/
theorem State.requestFlush_lastPlaced {w : State} {g : Filling} (hf : w.clip.filling = some g)
    (h : g.placement % 512 = 0) : w.requestFlush w.buffer.lastPlaced =
    { w with buffer := { w.buffer with flush := w.buffer.rolloverMark } } := by
  unfold ChunkBuffer.rolloverMark ChunkBuffer.lastPlaced
  cases (w.buffer.queue.filter (fun d => d.place.isSome)).getLast? with
  | none => rfl
  | some d =>
    refine (State.requestFlush_block hf h d.seq).trans ?_
    rw [ChunkBuffer.combineMark_eq] <;> cases w.buffer.flush <;> rfl

/-- A rollover begins: the stream is ended, the close pending, and the last chunk placed marked. -/
theorem State.beginRollover_eq (w : State) (f : Filling) (cause : CloseCause) : w.beginRollover f cause = { w with
    buffer := { w.buffer with flush := w.buffer.rolloverMark }
    clip := { w.clip with filling := some { f with
      pending := some cause
      placement := (f.placement + 511) / 512 * 512
      fillers := if f.placement % 512 = 0 then f.fillers else f.fillers ++ [f.placement] } } } := by
  unfold State.beginRollover
  rw [Filling.endStream_eq]
  exact State.requestFlush_lastPlaced rfl (Nat.mul_mod_left _ _)

/-! ### A chunk past the emergency limit (R100) -/

/-- Where the stream ends once the chunks from the first unplaced one on are gone. -/
theorem State.standingEnd_placed {w : State} {q : List Chunk} (hq : w.buffer.queue = q)
    (hd : ∀ d ∈ q, d.place ≠ none) : w.standingEnd f = match q.getLast? with
      | some d => d.place.getD 0 + (16 + d.length)
      | none => (w.clip.slot f.slot).streamLen := by
  have hall : q.filter (fun c => c.place.isSome) = q :=
    List.filter_eq_self.mpr fun d h => Option.isSome_iff_ne_none.mpr (hd d h)
  unfold State.standingEnd
  rw [hq, hall]
  cases q.getLast? <;> rfl

/-- In EMERGENCY a chunk that may not be placed is discarded, with all after it, and the stream ended. -/
theorem State.emergencyDiscard_eq {w : State} {q rest : List Chunk} {c : Chunk} {pos : Nat}
    (hq : w.buffer.queue = q ++ c :: rest) (hd : ∀ d ∈ q, d.place ≠ none) (hs : ∀ d ∈ q, d.seq ≠ c.seq)
    (hpos : (match q.getLast? with
      | some d => d.place.getD 0 + (16 + d.length)
      | none => (w.clip.slot f.slot).streamLen) = pos) : w.emergencyDiscard f c.seq = { w with
    buffer := { w.buffer with
      queue := q, free := w.buffer.free ++ (c :: rest).flatMap Chunk.pages
      discarded := w.buffer.discarded + BitVec.ofNat 32 (rest.length + 1)
      flush := w.buffer.flush.filter (fun m => decide (m ∈ q.map Chunk.seq)) }
    clip := { w.clip with
      filling := some { f with
        placement := if f.front ≤ pos / 512 ∧ pos % 512 ≠ 0 then (pos / 512 + 1) * 512 else pos
        fillers := if f.front ≤ pos / 512 ∧ pos % 512 ≠ 0 then
          f.fillers.filter (fun st => decide (st < pos)) ++ [pos] else f.fillers.filter (fun st => decide (st < pos))
        anyPlaced := f.anyPlaced && decide (pos ≠ 0) }
      slots := if pos = 0 then w.clip.slots.setIfInBounds f.slot { w.clip.slot f.slot with firstSeq := none }
        else w.clip.slots } } := by
  unfold State.emergencyDiscard
  rw [w.buffer.discardFrom_eq hq hs]
  dsimp only
  rw [State.standingEnd_placed (q := q) rfl hd, State.endStreamAt_eq]
  subst hpos
  have hkeep : w.clip.slots.setIfInBounds f.slot (w.clip.slot f.slot) = w.clip.slots := w.clip.setSlot_self f.slot
  have hslots (p : Prop) [Decidable p] (x : Slot) :
      w.clip.slots.setIfInBounds f.slot (if p then x else w.clip.slot f.slot) =
      if p then w.clip.slots.setIfInBounds f.slot x else w.clip.slots := by
    split
    · rfl
    · exact hkeep
  exact congrArg (fun v => ({ w with
    buffer := _
    clip := { w.clip with filling := _, slots := v } } : State)) (hslots _ _)

/-! ### A chunk that fits in no segment (R93) -/

/-- A segment in which no chunk was placed: its slot UNUSABLE, the rollover reported. -/
def State.segmentUnusable (w : State) (f : Filling) (c : Chunk) : State :=
  State.raise { w with clip := { w.clip with
    slots := w.clip.slots.setIfInBounds f.slot { w.clip.slot f.slot with
      state := .unusable, prot := none, clip := none, firstSeq := none, lastSeq := none, startTime := none
      endTime := none, closeSeq := none, endReason := none } } } (.rolloverForced f.slot c.seq)

theorem State.unusableSegment_eq (w : State) (f : Filling) (c : Chunk) : w.unusableSegment f c =
    match (w.segmentUnusable f c).seekSlot w.clip.mode none 65 with
    | (u, some i) => (u.takeSlot i).setClipState u.clip.state.resumed
    | (u, none) => u.abandonClip .ringFull := by
  unfold State.unusableSegment
  simp only
  generalize hu : (w.setSlot f.slot _).raise (.rolloverForced f.slot c.seq) = u
  have hmarked : u = w.segmentUnusable f c := hu.symm
  have hmode : u.clip.mode = w.clip.mode := by rw [hmarked]; rfl
  cases hfound : (w.segmentUnusable f c).seekSlot w.clip.mode none 65 with
  | mk v found => cases found <;> rw [hmode, hmarked, hfound]

theorem State.segmentUnusable_slot (w : State) (f : Filling) (c : Chunk) {i : Nat} (h : i ≠ f.slot) :
    (w.segmentUnusable f c).clip.slot i = w.clip.slot i := w.clip.slot_setSlot_ne h _

/-- A search after a segment made UNUSABLE tries what one among the other slots would (R93). -/
theorem State.segmentUnusable_chosen {w : State} {c : Chunk} {mode : ClipMode} {i : Nat}
    (h : w.clip.Chosen mode (some f.slot) i) : (w.segmentUnusable f c).clip.candidate mode none = some i :=
  (h.transfer (by rfl) fun j => w.clip.setSlot_slot f.slot j _).candidate

theorem State.segmentUnusable_noSlot {w : State} {c : Chunk} {mode : ClipMode}
    (h : w.clip.NoSlot mode (some f.slot)) : (w.segmentUnusable f c).clip.candidate mode none = none :=
  (h.transfer (by rfl) fun j => w.clip.setSlot_slot f.slot j _).candidate

theorem State.segmentUnusable_contributions {w : State} {c : Chunk} {i : Nat} (h : i ≠ f.slot) :
    (w.segmentUnusable f c).contributions i = w.contributions i :=
  State.contributions_congr rfl (w.segmentUnusable_slot f c h)

/-- A slot passed over in the search might as well have been UNUSABLE before the segment was. -/
theorem State.unusableSegment_markUnusable {w : State} {c : Chunk} {i : Nat}
    (h : w.clip.Chosen w.clip.mode (some f.slot) i) (hz : (w.contributions i).sum = 0) :
    w.unusableSegment f c = (w.markUnusable i).unusableSegment f c := by
  have hne := h.ne
  have hseek := (w.segmentUnusable f c).seekSlot_unusable (State.segmentUnusable_chosen h)
    ((congrArg List.sum (State.segmentUnusable_contributions hne)).trans hz)
  have hswap : (w.segmentUnusable f c).markUnusable i = (w.markUnusable i).segmentUnusable f c := by
    have hcomm := setIfInBounds_comm w.clip.slots hne.symm { w.clip.slot f.slot with
      state := .unusable, prot := none, clip := none, firstSeq := none, lastSeq := none, startTime := none
      endTime := none, closeSeq := none, endReason := none }
      { (w.clip.slot i).withoutOptional with state := .unusable }
    have hfirst : (w.segmentUnusable f c).markUnusable i = (w.segmentUnusable f c).setSlot i
        { (w.clip.slot i).withoutOptional with state := .unusable } := by
      unfold State.markUnusable
      rw [w.segmentUnusable_slot f c hne]
    have hslot : (w.markUnusable i).clip.slot f.slot = w.clip.slot f.slot := w.clip.slot_setSlot_ne hne.symm _
    refine hfirst.trans ((congrArg (fun v => State.raise { w with clip := { w.clip with slots := v } }
      (.rolloverForced f.slot c.seq)) hcomm).trans ?_)
    unfold State.segmentUnusable
    rw [hslot]
    rfl
  rw [State.unusableSegment_eq, hseek, hswap, State.unusableSegment_eq]
  rfl

/-- The clip goes on in the slot found after a segment made UNUSABLE. -/
theorem State.unusableSegment_found {w : State} {c : Chunk} {i : Nat} (h : w.clip.Chosen w.clip.mode (some f.slot) i)
    (hz : (w.contributions i).sum ≠ 0) :
    w.unusableSegment f c = w.goOnIn (w.segmentUnusable f c) i := by
  have hne := h.ne
  rw [State.unusableSegment_eq, State.seekSlot_found _ (State.segmentUnusable_chosen h)
    (by rw [State.segmentUnusable_contributions hne]; exact hz)]
  exact State.takeSlot_goOnIn rfl rfl (w.segmentUnusable_slot f c hne)

theorem State.unusableSegment_none {w : State} {c : Chunk} (h : w.clip.NoSlot w.clip.mode (some f.slot)) :
    w.unusableSegment f c = (w.segmentUnusable f c).abandonClip .ringFull := by
  rw [State.unusableSegment_eq, State.seekSlot_none _ (State.segmentUnusable_noSlot h)]

/-! ### The judgement (R93) -/

/-- Past the threshold RECORDING waits for a keyframe, in which state the chunk is judged. -/
def State.awaiting (s : State) (f : Filling) : State :=
  { s with clip := { s.clip with
    state := if s.clip.state = .recording ∧ (f.contrib.sum - s.clip.cfg.allowance) * 512 ≤ f.placement then
      .rolloverWait else s.clip.state } }

theorem State.awaitKeyframe_eq (s : State) (f : Filling) : s.awaitKeyframe f = s.awaiting f := by
  unfold State.awaitKeyframe State.awaiting
  show (if s.clip.state = .recording ∧ (f.contrib.sum - s.clip.cfg.allowance) * 512 ≤ f.placement then _ else _) = _
  split <;> rfl

theorem State.awaiting_emergency (he : s.clip.state = .emergency) : s.awaiting f = s := by
  rw [State.awaiting, if_neg (by simp [he])]

theorem State.awaiting_ne_emergency (he : s.clip.state ≠ .emergency) : (s.awaiting f).clip.state ≠ .emergency := by
  show (if _ then _ else _) ≠ _
  split
  · simp
  · exact he

/-- In RECORDING and ROLLOVER_WAIT the chunk is judged in ROLLOVER_WAIT once the threshold is reached. -/
theorem State.awaiting_state (h : s.clip.state = .recording ∨ s.clip.state = .rolloverWait) :
    (s.awaiting f).clip.state = if (f.contrib.sum - s.clip.cfg.allowance) * 512 ≤ f.placement then .rolloverWait
      else s.clip.state := by
  show (if _ ∧ _ then _ else _) = _
  rcases h with h | h <;> simp [h]

/-- The judgement outside EMERGENCY. -/
theorem State.judgePlacement_eq {c : Chunk} (he : s.clip.state ≠ .emergency) :
    s.judgePlacement f c =
      if (s.awaiting f).clip.state = .rolloverWait ∧ c.kind = .video ∧ c.key = true ∧ f.anyPlaced = true then
        (s.awaiting f).beginRollover f .rollover
      else if f.placement + (16 + c.length) ≤ f.contrib.sum * 512 then (s.awaiting f).placeChunk f c
      else if f.anyPlaced = true then ((s.awaiting f).raise (.rolloverForced f.slot c.seq)).beginRollover f .forced
      else (s.awaiting f).unusableSegment f c := by
  unfold State.judgePlacement
  rw [State.awaitKeyframe_eq, if_neg (State.awaiting_ne_emergency he)]
  simp only [decide_eq_true_eq]
  rfl

/-- The judgement in EMERGENCY. -/
theorem State.judgePlacement_emergency {c : Chunk} (he : s.clip.state = .emergency) :
    s.judgePlacement f c =
      if f.placement + (16 + c.length) ≤ f.contrib.sum * 512 ∧ f.placement + (16 + c.length) ≤ f.limit then
        s.placeChunk f c
      else s.emergencyDiscard f c.seq := by
  unfold State.judgePlacement
  rw [State.awaitKeyframe_eq, State.awaiting_emergency he, if_pos he]
  simp only [Bool.and_eq_true, decide_eq_true_eq]
  rfl

end Sys2Proof.Machine
end


section
/-! SUPPORT. What an event's end does and leaves, settled (R68, R75, R91–R95, R99, R100, R106). -/
namespace Sys2Proof.Machine

variable {s : State} {f : Filling}

/-- The next chunk judged, and the rest of the work after it. -/
theorem State.settleClip_judges {q rest : List Chunk} {c : Chunk} (hf : s.clip.filling = some f)
    (hp : f.pending = none) (hi : s.clip.state ≠ .idle) (hq : s.buffer.queue = q ++ c :: rest)
    (hd : ∀ d ∈ q, d.place ≠ none) (hc : c.place = none) (hr : c.state ≠ .receiving) :
    s.settleClip = (s.judgePlacement f c).settleClip :=
  State.settleClip_judge (State.drained_of_open hf hp) (State.nextPlacement_of_first hf hp hi hq hd hc hr)

/-- An event whose standing work ends in a settled state. -/
theorem State.conclude_of_settled {u : State} (h : s.settleClip = u.settleClip) (hu : u.settleClip = u) :
    s.conclude.clip = u.clip ∧ s.conclude.buffer.queue = u.buffer.queue ∧
    s.conclude.buffer.flush = u.buffer.flush := by
  obtain ⟨hclip, -, hbuffer⟩ := State.conclude_settled hu
  rw [State.conclude_congr h]
  exact ⟨hclip, by rw [hbuffer], by rw [hbuffer]⟩

/-! ### The pieces of the standing work as the statement has them -/

/-- A drained segment closes, and the clip goes on in the slot found or ends (R91, R94, R95). -/
theorem State.settleClip_closes {cause : CloseCause} (hf : s.clip.filling = some f) (hp : f.pending = some cause)
    (hi : s.clip.state ≠ .idle) (he : s.clip.state ≠ .emergency) (hq : ∀ c ∈ s.buffer.queue, c.place = none) :
    (∀ i, s.clip.Chosen s.clip.mode (some f.slot) i → (s.contributions i).sum = 0 →
      s.settleClip = (s.markUnusable i).settleClip) ∧
    (∀ i, s.clip.Chosen s.clip.mode (some f.slot) i → (s.contributions i).sum ≠ 0 →
      s.settleClip = (s.goOnIn (s.closeSegment (cause.reason true)) i).settleClip) ∧
    (s.clip.NoSlot s.clip.mode (some f.slot) →
      s.settleClip = ((s.closeSegment (cause.reason false)).abandonClip .ringFull).settleClip) := by
  have hd := State.drained_of_pending hf hp hi he hq
  exact ⟨fun i hc hz => State.settleClip_closes_unusable hd hc.candidate hz,
    fun i hc hz => State.settleClip_closes_found hd hc.candidate hc.ne hz,
    fun hn => State.settleClip_closes_none hd hn.candidate⟩

/-- The next chunk judged outside EMERGENCY, by its outcome (R93, R94). -/
theorem State.settleClip_judged {q rest : List Chunk} {c : Chunk} (hf : s.clip.filling = some f)
    (hp : f.pending = none) (hi : s.clip.state ≠ .idle) (he : s.clip.state ≠ .emergency)
    (hq : s.buffer.queue = q ++ c :: rest) (hd : ∀ d ∈ q, d.place ≠ none) (hc : c.place = none)
    (hr : c.state ≠ .receiving) :
    let w := s.awaiting f
    let turns := w.clip.state = .rolloverWait ∧ c.kind = .video ∧ c.key = true ∧ f.anyPlaced = true
    let fits := f.placement + (16 + c.length) ≤ f.contrib.sum * 512
    (turns → s.settleClip = (w.beginRollover f .rollover).settleClip) ∧
    (¬turns → fits → s.settleClip = (w.placeChunk f c).settleClip) ∧
    (¬turns → ¬fits → f.anyPlaced = true →
      s.settleClip = ((w.raise (.rolloverForced f.slot c.seq)).beginRollover f .forced).settleClip) ∧
    (¬turns → ¬fits → f.anyPlaced = false →
      (∀ i, s.clip.Chosen s.clip.mode (some f.slot) i → (s.contributions i).sum = 0 →
        s.settleClip = (s.markUnusable i).settleClip) ∧
      (∀ i, s.clip.Chosen s.clip.mode (some f.slot) i → (s.contributions i).sum ≠ 0 →
        s.settleClip = (s.goOnIn (w.segmentUnusable f c) i).settleClip) ∧
      (s.clip.NoSlot s.clip.mode (some f.slot) →
        s.settleClip = ((w.segmentUnusable f c).abandonClip .ringFull).settleClip)) := by
  intro w turns fits
  have hjudge := State.settleClip_judges hf hp hi hq hd hc hr
  have hrule := State.judgePlacement_eq (f := f) (c := c) he
  rw [hrule] at hjudge
  refine ⟨fun ht => ?_, fun ht h => ?_, fun ht h ha => ?_, fun ht h ha => ?_⟩
  · exact hjudge.trans (congrArg State.settleClip (if_pos ht))
  · exact hjudge.trans (congrArg State.settleClip ((if_neg ht).trans (if_pos h)))
  · exact hjudge.trans (congrArg State.settleClip ((if_neg ht).trans ((if_neg h).trans (if_pos ha))))
  replace hjudge := hjudge.trans
    (congrArg State.settleClip ((if_neg ht).trans ((if_neg h).trans (if_neg (by simp [ha])))))
  refine ⟨fun i hch hz => ?_, fun i hch hz => ?_, fun hn => ?_⟩
  · have hjudge' := State.settleClip_judges (s := s.markUnusable i) hf hp hi hq hd hc hr
    have hrule' := State.judgePlacement_eq (s := s.markUnusable i) (f := f) (c := c) he
    have hun := hrule'.trans ((if_neg ht).trans ((if_neg h).trans (if_neg (by simp [ha]))))
    have hpass : w.unusableSegment f c = (w.markUnusable i).unusableSegment f c :=
      State.unusableSegment_markUnusable hch hz
    exact hjudge.trans ((congrArg State.settleClip (hpass.trans hun.symm)).trans hjudge'.symm)
  · exact hjudge.trans (congrArg State.settleClip (State.unusableSegment_found (w := w) hch hz))
  · exact hjudge.trans (congrArg State.settleClip (State.unusableSegment_none (w := w) hn))

/-- A chunk placed last in the queue: no standing work is left. -/
theorem State.settleClip_placed {w : State} {q : List Chunk} {c : Chunk} {g : Filling}
    (hf : w.clip.filling = some g) (hp : g.pending = none) (hq : w.buffer.queue = q ++ [c])
    (hd : ∀ d ∈ q, d.place ≠ none) (hplace : c.place ≠ none) :
    w.settleClip = w := by
  have hall : ∀ d ∈ w.buffer.queue, d.place ≠ none := by
    intro d h
    rw [hq, List.mem_append, List.mem_singleton] at h
    rcases h with h | rfl
    · exact hd d h
    · exact hplace
  refine State.settleClip_nothing (fun f h hne => absurd ?_ hne) (fun f q d rest _ _ h _ hn => ?_)
    fun h => absurd h (by simp [hq])
  · rw [hf] at h
    cases h
    exact hp
  · exact absurd hn (hall d (by simp [h]))

/-- A rollover begun with a chunk still placed in the queue: no standing work is left until it has left. -/
theorem State.settleClip_draining {w : State} {d : Chunk} {g : Filling} (hf : w.clip.filling = some g)
    (hp : g.pending ≠ none) (hd : d ∈ w.buffer.queue) (hplace : d.place ≠ none) : w.settleClip = w := by
  refine State.settleClip_nothing (fun _ _ _ => .inr ⟨d, hd, hplace⟩) (fun f _ _ _ h hn => ?_)
    fun h => absurd hd (by simp [h])
  rw [hf] at h
  cases h
  exact absurd hn hp

/-- The last chunk of the queue, placed or the start of a rollover (R77, R92–R94). -/
theorem State.conclude_lastChunk {q : List Chunk} {c : Chunk} (hf : s.clip.filling = some f) (hp : f.pending = none)
    (hstate : s.clip.state = .recording ∨ s.clip.state = .rolloverWait) (hq : s.buffer.queue = q ++ [c])
    (hd : ∀ d ∈ q, d.place ≠ none ∧ d.seq ≠ c.seq) (hready : c.state = .ready) (hc : c.place = none)
    (hflush : s.buffer.flush = none) :
    let past := (f.contrib.sum - s.clip.cfg.allowance) * 512 ≤ f.placement
    let waits := s.clip.state = .rolloverWait ∨ past
    (¬(waits ∧ c.kind = .video ∧ c.key = true ∧ f.anyPlaced = true) →
      f.placement + (16 + c.length) ≤ f.contrib.sum * 512 →
      s.conclude.buffer.queue = q ++ [{ c with state := .placed, place := some f.placement, acked := 0 }] ∧
      s.conclude.clip = { s.clip with
        state := if past then .rolloverWait else s.clip.state
        filling := some { f with placement := f.placement + (16 + c.length), anyPlaced := true }
        slots := if f.anyPlaced then s.clip.slots else s.clip.slots.setIfInBounds f.slot
          { s.clip.slot f.slot with firstSeq := some c.seq } }) ∧
    (waits → c.kind = .video → c.key = true → f.anyPlaced = true → ∀ p d, q = p ++ [d] →
      s.conclude.buffer.queue = s.buffer.queue ∧ s.conclude.buffer.flush = some d.seq ∧
      s.conclude.clip = { s.clip with
        state := .rolloverWait
        filling := some { f with
          pending := some .rollover
          placement := (f.placement + 511) / 512 * 512
          fillers := if f.placement % 512 = 0 then f.fillers else f.fillers ++ [f.placement] } }) := by
  intro past waits
  have hi : s.clip.state ≠ .idle := by rcases hstate with h | h <;> simp [h]
  have he : s.clip.state ≠ .emergency := by rcases hstate with h | h <;> simp [h]
  have hplaced : ∀ d ∈ q, d.place ≠ none := fun d h => (hd d h).1
  have hawait : (s.awaiting f).clip.state = if past then .rolloverWait else s.clip.state := State.awaiting_state hstate
  have hwaits : (s.awaiting f).clip.state = .rolloverWait ↔ waits := by
    rw [hawait]
    split <;> simp [waits, *]
  have hjudge := State.settleClip_judges hf hp hi hq hplaced hc (by simp [hready])
  have hrule := State.judgePlacement_eq (f := f) (c := c) he
  refine ⟨fun hturn hfit => ?_, fun hw hkind hkey ha p d hlast => ?_⟩
  · have hother : ∀ d ∈ q ++ [], d.seq ≠ c.seq := by simpa using fun d h => (hd d h).2
    have hplace := State.placeChunk_eq (w := s.awaiting f) (f := f) hq hother
    have hnot := hrule.trans ((if_neg (by rw [← hwaits] at hturn; exact hturn)).trans (if_pos hfit))
    rw [hnot.trans hplace] at hjudge
    obtain ⟨hclip, hqueue, -⟩ :=
      State.conclude_of_settled hjudge (State.settleClip_placed rfl hp rfl hplaced (by simp))
    have hmark : (s.awaiting f).buffer.flush ≠ some c.seq := by
      show s.buffer.flush ≠ _
      simp [hflush]
    simp only [hmark, false_and, if_false] at hclip
    refine ⟨hqueue, hclip.trans ?_⟩
    exact congrArg (fun v => ({ s.clip with state := v, filling := _, slots := _ } : ClipRecorder)) hawait
  · have hroll := hrule.trans ((if_pos ⟨hwaits.mpr hw, hkind, hkey, ha⟩).trans
      (State.beginRollover_eq (s.awaiting f) f .rollover))
    rw [hroll] at hjudge
    have hdq : d ∈ s.buffer.queue := by simp [hq, hlast]
    obtain ⟨hclip, hqueue, hflush'⟩ := State.conclude_of_settled hjudge
      (State.settleClip_draining rfl (by simp) hdq (hplaced d (by simp [hlast])))
    have hstands : s.buffer.queue.filter (fun e => e.place.isSome) = p ++ [d] := by
      rw [hq, List.filter_append, List.filter_eq_self.mpr fun e h => Option.isSome_iff_ne_none.mpr (hplaced e h), hlast]
      simp [hc]
    have hmark : s.buffer.rolloverMark = some d.seq := by
      unfold ChunkBuffer.rolloverMark
      rw [hstands, hflush]
      simp
    refine ⟨hqueue, hflush'.trans hmark, hclip.trans ?_⟩
    exact congrArg (fun v => ({ s.clip with state := v, filling := _ } : ClipRecorder)) (hwaits.mpr hw)

/-- A drained segment closes and the clip goes on in the first FREE slot (R91, R94, R95). -/
theorem State.conclude_drained {cause : CloseCause} {i : Nat} (hf : s.clip.filling = some f)
    (hp : f.pending = some cause) (hstate : s.clip.state = .recording ∨ s.clip.state = .rolloverWait)
    (hq : ∀ c ∈ s.buffer.queue, c.place = none ∧ c.state = .receiving) (hi : i < 64) (hne : i ≠ f.slot)
    (hfree : (s.clip.slot i).state = .free)
    (hfirst : ∀ j, j < i → j ≠ f.slot → (s.clip.slot j).state ≠ .free) (hz : (s.contributions i).sum ≠ 0) :
    s.conclude.buffer.queue = s.buffer.queue ∧
    s.conclude.clip = (s.goOnIn (s.closeSegment (cause.reason true)) i).clip := by
  have hidle : s.clip.state ≠ .idle := by rcases hstate with h | h <;> simp [h]
  have hem : s.clip.state ≠ .emergency := by rcases hstate with h | h <;> simp [h]
  have hclosing : s.clip.state ≠ .closing := by rcases hstate with h | h <;> simp [h]
  have hchosen : s.clip.Chosen s.clip.mode (some f.slot) i :=
    ⟨hi, by simpa using hne, .inl ⟨hfree, fun j hj hx => hfirst j hj (by simpa using hx)⟩⟩
  obtain ⟨-, hfound, -⟩ := State.settleClip_closes hf hp hidle hem fun c h => (hq c h).1
  have hrecording : (s.goOnIn (s.closeSegment (cause.reason true)) i).clip.state = .recording := by
    rw [State.closeSegment_eq hf]
    exact if_neg hclosing
  have hqueue : (s.goOnIn (s.closeSegment (cause.reason true)) i).buffer.queue = s.buffer.queue := by
    rw [State.closeSegment_eq hf]
    rfl
  obtain ⟨hclip, hleft, -⟩ := State.conclude_of_settled (hfound i hchosen hz)
    (State.settleClip_recording rfl hrecording rfl fun c h _ => (hq c (hqueue ▸ h)).2)
  exact ⟨hleft.trans hqueue, hclip⟩

/-- Settles O4: each clause from what the end of the event leaves or from a piece of the standing work, judged or closed
once and written out. -/
theorem concludeLeaves : Obligations.ConcludeLeaves := by
  intro s
  obtain ⟨hheld, hasked⟩ := s.conclude_grant
  refine ⟨_, rfl, s.conclude_frame, s.conclude_hold_iff, s.conclude_latDeadline, hheld, hasked,
    fun hi => ?_, fun f q c hf hp hs64 hstate hq hd hready hc hflush => ?_,
    fun f cause i hf hp hs64 hstate hq hi hne hfree hfirst hz => ?_, fun hd hn he => ?_, fun f hf hs64 => ?_⟩
  · obtain ⟨hclip, hframe, hbuffer⟩ := State.conclude_settled (State.settleClip_of_idle hi)
    exact ⟨hclip, by rw [hbuffer], by rw [hframe]⟩
  · exact State.conclude_lastChunk hf hp hstate hq hd hready hc hflush
  · obtain ⟨hqueue, hclip⟩ := State.conclude_drained hf hp hstate hq hi hne hfree hfirst hz
    refine ⟨hqueue, ?_⟩
    have hclosing : s.clip.state ≠ .closing := by rcases hstate with h | h <;> simp [h]
    rw [hclip, State.closeSegment_eq hf]
    cases cause <;> exact congrArg (fun v => ({ s.clip with
      state := v, closeCounter := _, slots := _, filling := _ } : ClipRecorder)) (if_neg hclosing)
  · have hsettle := State.settleClip_nothing hd hn he
    exact ⟨hsettle, State.conclude_settled hsettle⟩
  · intro goesOn x close take unusable endWith ringFull chosen noSlot
    have hgo : ∀ u : State, s.settleClip = u.settleClip → goesOn u := fun u h => ⟨h, State.conclude_congr h⟩
    have hclose : ∀ reason, s.closeSegment reason = close s reason := State.closeSegment_eq hf
    have hend : ∀ w reason, w.clip.clipNumber = s.clip.clipNumber → w.endClip reason = endWith w reason := by
      intro w reason h
      unfold State.endClip
      rw [h]
    have hringFull : ∀ w, w.buffer = s.buffer → w.frame = s.frame → w.clip.clipNumber = s.clip.clipNumber →
        w.abandonClip .ringFull = ringFull w := by
      intro w hb hfr hn
      rw [State.abandonClip_eq, hb, hfr, hn]
    refine ⟨fun cause hp hi he hq => ?_, fun hq => ⟨fun hc hp => ?_, fun hc => ?_⟩,
      fun q c rest hq hd hs hc hr hp hi => ?_⟩
    · obtain ⟨hunusable, hfound, hnone⟩ := State.settleClip_closes hf hp hi he hq
      refine ⟨fun i hch hz => hgo _ (hunusable i hch hz), fun i hch hz => hgo _ ?_, fun hn => hgo _ ?_⟩
      · cases cause <;> exact (hfound i hch hz).trans (congrArg (fun w => (s.goOnIn w i).settleClip) (hclose _))
      · rw [hnone hn, hclose, hringFull (close s (cause.reason false)) rfl rfl rfl, CloseCause.reason_none]
    · have hstop : (s.closeSegment .stop).endClip .stop = endWith (close s .stop) .stop := by
        rw [hclose]
        exact hend (close s .stop) .stop rfl
      refine hgo _ (.trans ?_ (State.settleClip_of_idle rfl).symm)
      rw [State.settleClip_stop hf hp hq hc, hstop]
    · have hstop := State.settleClip_emergencyEnd hf hq hc
      rw [hclose, hend (close s _) .emergency rfl] at hstop
      exact hgo _ (hstop.trans (State.settleClip_of_idle rfl).symm)
    · intro past w stop fits turns place rollOver
      have hplace : (s.awaiting f).placeChunk f c = place := State.placeChunk_eq (w := s.awaiting f) hq hs
      refine ⟨fun he => ?_, fun he => ?_⟩
      · obtain ⟨hturn, hfit, hforced, hempty⟩ := State.settleClip_judged hf hp hi he hq hd hc hr
        refine ⟨fun ht => hgo _ ?_, fun ht h => hgo _ ?_, fun ht h ha => hgo _ ?_, fun ht h ha => ?_⟩
        · rw [hturn ht, State.beginRollover_eq]
          rfl
        · exact (hfit ht h).trans (congrArg State.settleClip hplace)
        · rw [hforced ht h ha, State.beginRollover_eq]
          rfl
        · intro marked
          obtain ⟨hunusable, hfound, hnone⟩ := hempty ht h ha
          exact ⟨fun i hch hz => hgo _ (hunusable i hch hz), fun i hch hz => hgo _ (hfound i hch hz),
            fun hn => hgo _ ((hnone hn).trans (congrArg State.settleClip (hringFull marked rfl rfl rfl)))⟩
      · have hjudge := State.settleClip_judges hf hp hi hq hd hc hr
        have hrule := State.judgePlacement_emergency (f := f) (c := c) he
        rw [State.awaiting_emergency he] at hplace
        refine ⟨fun hfit hlimit => hgo _ ?_, fun hnot => ?_⟩
        · rw [hjudge, hrule, if_pos ⟨hfit, hlimit⟩]
          exact congrArg State.settleClip hplace
        · intro pos filled kept
          refine hgo _ ?_
          rw [hjudge, hrule.trans (if_neg hnot), State.emergencyDiscard_eq (pos := pos) hq hd
            (fun d h => hs d (List.mem_append_left _ h)) rfl]

end Sys2Proof.Machine
end
